-- ==== Sys2Proof/Word.lean ====
section
/-! DEFINITION. The word types of the block: bus words, 256-bit operands, register indices, and the two
records made of 256-bit operands. -/

namespace Sys2Proof

/-- One byte of a bus word (R63). -/
abbrev Byte := BitVec 8

/-- A 32-bit bus word; a command is one such word (R60, R90). -/
abbrev Word := BitVec 32

/-- The contents of a field register, a point coordinate or a curve register: an unsigned
integer in `[0, 2^256)` (R6, R20). -/
abbrev U256 := BitVec 256

/-- An index of a field register `F0` to `F15` (R20, R96). -/
abbrev FReg := Fin 16

/-- An index of a point register `P0` to `P7` (R23, R96). -/
abbrev PReg := Fin 8

/-- The record `CURVE = (p, a, b, n, Gx, Gy)` of 256-bit naturals (R7, R8). -/
structure Curve where
  p  : U256
  a  : U256
  b  : U256
  n  : U256
  gx : U256
  gy : U256
deriving DecidableEq, Repr, Inhabited

/-- One point register: the `inf` bit and the two coordinates (R23). -/
structure PointReg where
  inf : Bool
  x   : U256
  y   : U256
deriving DecidableEq, Repr, Inhabited

end Sys2Proof
end

