-- ==== Sys2Proof/Syntax.lean ====
section
/-! DEFINITION. The command set: one constructor of `Instr` for each row of spec/opcode_table.json
(R91), with the operand fields that R92, R93 and R94 give the row. -/

namespace Sys2Proof

/-- The modulus select `msel` of an F-format command (R95).  The fourth code, `0b11`, is illegal
(R99) and names nothing. -/
inductive ModSel where
  /-- `msel = 00`: the field register `F[rm]`. -/
  | freg
  /-- `msel = 01`: `CURVE.p`. -/
  | curveP
  /-- `msel = 10`: `CURVE.n`. -/
  | curveN
deriving DecidableEq, Repr

/-- A command of the block. -/
inductive Instr where
  /-- NOP, opcode 0x00 (R193). -/
  | nop
  /-- MONTMUL, opcode 0x01 (R122). -/
  | montmul (rd rs1 rs2 rm : FReg) (msel : ModSel)
  /-- BARRETT, opcode 0x02 (R126): `rs1` is the high half of the dividend, `rs2` the low half. -/
  | barrett (rd rs1 rs2 rm : FReg) (msel : ModSel)
  /-- MODEXP, opcode 0x03 (R130): `rs1` is the base, `rs2` the exponent. -/
  | modexp (rd rs1 rs2 rm : FReg) (msel : ModSel)
  /-- MODINV, opcode 0x04 (R134); its `rs2` field is 0. -/
  | modinv (rd rs1 rm : FReg) (msel : ModSel)
  /-- PADD, opcode 0x08 (R152). -/
  | padd (pd ps1 ps2 : PReg)
  /-- PDBL, opcode 0x09 (R151). -/
  | pdbl (pd ps1 : PReg)
  /-- SMUL, opcode 0x0A (R171), with its option bits `gsel` and `chk` (R98). -/
  | smul (pd ps1 : PReg) (rk : FReg) (gsel chk : Bool)
deriving DecidableEq, Repr

end Sys2Proof
end

