-- ==== Sys2Proof/WellFormed.lean ====
section
/-! DEFINITION. Which terms of `Instr` have a legal command word: the conditions of R99 that the
operand fields of a term can still break. -/

namespace Sys2Proof

/-- R99, item 4: an F-format command whose modulus is not `F[rm]` has `rm = 0`. -/
def modulusFieldsOk (rm : FReg) : ModSel → Bool
  | .freg => true
  | .curveP => rm == 0
  | .curveN => rm == 0

/-- R99, item 8: an SMUL that multiplies the base point has `ps1 = 0`. -/
def baseFieldsOk (ps1 : PReg) (gsel : Bool) : Bool := !gsel || ps1 == 0

/-- The command has a legal word.  Every other condition of R99 holds of every term: its opcode is in
the map, and its reserved fields are no fields of the term. -/
def Instr.wellFormed : Instr → Bool
  | .nop => true
  | .montmul _ _ _ rm msel => modulusFieldsOk rm msel
  | .barrett _ _ _ rm msel => modulusFieldsOk rm msel
  | .modexp _ _ _ rm msel => modulusFieldsOk rm msel
  | .modinv _ _ rm msel => modulusFieldsOk rm msel
  | .padd _ _ _ => true
  | .pdbl _ _ => true
  | .smul _ ps1 _ gsel _ => baseFieldsOk ps1 gsel

end Sys2Proof
end

