-- ==== Sys2Proof/Decode.lean ====
section
/-! DEFINITION. Decoding a command word (R90 to R100), total, with every illegal word rejected by the
item of R99 it breaks; the encoder (R102); the legality test written as R100 and as R101 write it;
and the assembler forms of R104 and R105. -/

namespace Sys2Proof

/-- `v[hi:lo]`, the field of bits `hi` down to `lo` read as an unsigned number (R9). -/
def bits (v : Word) (hi lo : Nat) : Nat := v.toNat / 2 ^ lo % 2 ^ (hi + 1 - lo)

/-- Why a word is illegal: the items of R99. -/
inductive IllegalWord where
  /-- item 1: the opcode is not in the map of R91 -/
  | opcodeReserved
  /-- item 2: a bit reserved in the format is not 0 -/
  | reservedBitSet
  /-- item 3: F format with `msel = 0b11` -/
  | mselReserved
  /-- item 4: F format with `msel` not 0 and `rm` not 0 -/
  | rmNotZero
  /-- item 5: MODINV with `rs2` not 0 -/
  | modinvRs2NotZero
  /-- item 6: PADD with `rk`, `gsel` or `chk` not 0 -/
  | paddFieldNotZero
  /-- item 7: PDBL with `ps2`, `rk`, `gsel` or `chk` not 0 -/
  | pdblFieldNotZero
  /-- item 8: SMUL with `ps2` not 0, or with `gsel = 1` and `ps1` not 0 -/
  | smulFieldNotZero
deriving DecidableEq, Repr

/-- A 4-bit field-register field whose lowest bit is `lo` (R96). -/
def fregField (c : Word) (lo : Nat) : FReg := ⟨c.toNat / 2 ^ lo % 16, Nat.mod_lt _ (by decide)⟩

/-- A 3-bit point-register field whose lowest bit is `lo` (R96). -/
def pregField (c : Word) (lo : Nat) : PReg := ⟨c.toNat / 2 ^ lo % 8, Nat.mod_lt _ (by decide)⟩

/-- `cmd[9:8]` (R95). -/
def decodeMsel : Nat → Except IllegalWord ModSel
  | 0 => .ok .freg
  | 1 => .ok .curveP
  | 2 => .ok .curveN
  | _ => .error .mselReserved

/-- The modulus fields `rm` and `msel` of an F-format word (R92, R95, R99 items 2 to 4), handed to the
command's constructor. -/
def decodeModulus (c : Word) (mk : FReg → ModSel → Instr) : Except IllegalWord Instr :=
  if bits c 7 0 = 0 then
    match decodeMsel (bits c 9 8) with
    | .error e => .error e
    | .ok msel =>
      if modulusFieldsOk (fregField c 10) msel then .ok (mk (fregField c 10) msel)
      else .error .rmNotZero
  else .error .reservedBitSet

/-- The word `c` as a command (R91 to R99).  A word that breaks several items of R99 is rejected under
one of them; the block reports ILLEGAL_OP whichever it is (R201). -/
def decode (c : Word) : Except IllegalWord Instr :=
  match bits c 31 26 with
  | 0x00 => if bits c 25 0 = 0 then .ok .nop else .error .reservedBitSet
  | 0x01 => decodeModulus c (.montmul (fregField c 22) (fregField c 18) (fregField c 14))
  | 0x02 => decodeModulus c (.barrett (fregField c 22) (fregField c 18) (fregField c 14))
  | 0x03 => decodeModulus c (.modexp (fregField c 22) (fregField c 18) (fregField c 14))
  | 0x04 =>
    if bits c 17 14 = 0 then decodeModulus c (.modinv (fregField c 22) (fregField c 18))
    else .error .modinvRs2NotZero
  | 0x08 =>
    if bits c 10 0 = 0 then
      if bits c 16 11 = 0 then
        .ok (.padd (pregField c 23) (pregField c 20) (pregField c 17))
      else .error .paddFieldNotZero
    else .error .reservedBitSet
  | 0x09 =>
    if bits c 10 0 = 0 then
      if bits c 19 11 = 0 then .ok (.pdbl (pregField c 23) (pregField c 20))
      else .error .pdblFieldNotZero
    else .error .reservedBitSet
  | 0x0A =>
    if bits c 10 0 = 0 then
      if bits c 19 17 = 0 then
        if baseFieldsOk (pregField c 20) (bits c 12 12 == 1) then
          .ok (.smul (pregField c 23) (pregField c 20) (fregField c 13)
            (bits c 12 12 == 1) (bits c 11 11 == 1))
        else .error .smulFieldNotZero
      else .error .smulFieldNotZero
    else .error .reservedBitSet
  | _ => .error .opcodeReserved

/-- The instruction the decoder reads from a word of the opcode table: `nbits` bits, every bit above
them 0.  A command is one 32-bit word (R90), so no longer row exists. -/
def decodeTableWord (nbits w : Nat) : Option Instr :=
  if nbits ≤ 32 then (decode (BitVec.ofNat 32 (w % 2 ^ nbits))).toOption else none

/-! ### The encoder (R102) -/

/-- The code of `msel` (R95). -/
def ModSel.code : ModSel → Nat
  | .freg => 0
  | .curveP => 1
  | .curveN => 2

/-- `encF` of R102: the fields are disjoint, so the sum is the spec's `|`. -/
def encF (op : Nat) (rd rs1 rs2 rm : FReg) (msel : ModSel) : Word :=
  BitVec.ofNat 32 (op * 2 ^ 26 + rd.val * 2 ^ 22 + rs1.val * 2 ^ 18 + rs2.val * 2 ^ 14
    + rm.val * 2 ^ 10 + msel.code * 2 ^ 8)

/-- `encP` of R102: the fields are disjoint, so the sum is the spec's `|`. -/
def encP (op : Nat) (pd ps1 ps2 : PReg) (rk : FReg) (gsel chk : Bool) : Word :=
  BitVec.ofNat 32 (op * 2 ^ 26 + pd.val * 2 ^ 23 + ps1.val * 2 ^ 20 + ps2.val * 2 ^ 17
    + rk.val * 2 ^ 13 + gsel.toNat * 2 ^ 12 + chk.toNat * 2 ^ 11)

/-- `encN` of R102: the only legal NOP word (R94). -/
def encN : Word := 0x00000000#32

/-- The word of a command (R102, R122, R126, R130, R134, R151, R152, R171, R193). -/
def encode : Instr → Word
  | .nop => encN
  | .montmul rd rs1 rs2 rm msel => encF 0x01 rd rs1 rs2 rm msel
  | .barrett rd rs1 rs2 rm msel => encF 0x02 rd rs1 rs2 rm msel
  | .modexp rd rs1 rs2 rm msel => encF 0x03 rd rs1 rs2 rm msel
  | .modinv rd rs1 rm msel => encF 0x04 rd rs1 0 rm msel
  | .padd pd ps1 ps2 => encP 0x08 pd ps1 ps2 0 false false
  | .pdbl pd ps1 => encP 0x09 pd ps1 0 0 false false
  | .smul pd ps1 rk gsel chk => encP 0x0A pd ps1 0 rk gsel chk

/-! ### Legality, as the spec writes it -/

/-- The legality test of R100, clause for clause. -/
def legal (c : Word) : Bool :=
  let op := bits c 31 26
  if op = 0x00 then bits c 25 0 == 0
  else if op = 0x01 ∨ op = 0x02 ∨ op = 0x03 ∨ op = 0x04 then
    bits c 7 0 == 0 && bits c 9 8 != 3 && (bits c 9 8 == 0 || bits c 13 10 == 0)
      && (op != 0x04 || bits c 17 14 == 0)
  else if op = 0x08 then bits c 16 0 == 0
  else if op = 0x09 then bits c 19 0 == 0
  else if op = 0x0A then
    bits c 19 17 == 0 && bits c 10 0 == 0 && (bits c 12 12 == 0 || bits c 22 20 == 0)
  else false

/-- One row of the mask-and-match table of R101. -/
structure OpcodeRow where
  matched : Word
  mask : Word
deriving DecidableEq, Repr

/-- The word has the row's fixed bits. -/
def OpcodeRow.holds (r : OpcodeRow) (c : Word) : Bool := c &&& r.mask == r.matched

/-- The row of R101 of a command's mnemonic. -/
def Instr.row : Instr → OpcodeRow
  | .nop => ⟨0x00000000#32, 0xFFFFFFFF#32⟩
  | .montmul _ _ _ _ _ => ⟨0x04000000#32, 0xFC0000FF#32⟩
  | .barrett _ _ _ _ _ => ⟨0x08000000#32, 0xFC0000FF#32⟩
  | .modexp _ _ _ _ _ => ⟨0x0C000000#32, 0xFC0000FF#32⟩
  | .modinv _ _ _ _ => ⟨0x10000000#32, 0xFC03C0FF#32⟩
  | .padd _ _ _ => ⟨0x20000000#32, 0xFC01FFFF#32⟩
  | .pdbl _ _ => ⟨0x24000000#32, 0xFC0FFFFF#32⟩
  | .smul _ _ _ _ _ => ⟨0x28000000#32, 0xFC0E07FF#32⟩

/-- The conditional checks of R101 beyond the mask, by mnemonic: `msel != 3` and
`rm = 0 if msel != 0` on the F-format rows, `ps1 = 0 if gsel = 1` on SMUL. -/
def Instr.rowConditions : Instr → Word → Bool
  | .nop, _ => true
  | .montmul _ _ _ _ _, c => bits c 9 8 != 3 && (bits c 9 8 == 0 || bits c 13 10 == 0)
  | .barrett _ _ _ _ _, c => bits c 9 8 != 3 && (bits c 9 8 == 0 || bits c 13 10 == 0)
  | .modexp _ _ _ _ _, c => bits c 9 8 != 3 && (bits c 9 8 == 0 || bits c 13 10 == 0)
  | .modinv _ _ _ _, c => bits c 9 8 != 3 && (bits c 9 8 == 0 || bits c 13 10 == 0)
  | .padd _ _ _, _ => true
  | .pdbl _ _, _ => true
  | .smul _ _ _ _ _, c => bits c 12 12 == 0 || bits c 22 20 == 0

/-! ### Assembler forms (R104, R105) -/

/-- A register operand, `f0` to `f15` or `p0` to `p7` (R104). -/
def regName (file : String) (i : Nat) : String := file ++ Nat.repr i

/-- The modulus operand `M` of R104: `fK`, `p` or `n`. -/
def modulusName (rm : FReg) : ModSel → String
  | .freg => regName "f" rm.val
  | .curveP => "p"
  | .curveN => "n"

/-- The point operand of SMUL (R104): `G` or a point register. -/
def basePointName (ps1 : PReg) (gsel : Bool) : String :=
  if gsel then "G" else regName "p" ps1.val

/-- The command in the assembler syntax of R104. -/
def Instr.asm : Instr → String
  | .nop => "nop"
  | .montmul rd rs1 rs2 rm msel =>
    "montmul " ++ regName "f" rd.val ++ ", " ++ regName "f" rs1.val ++ ", "
      ++ regName "f" rs2.val ++ ", " ++ modulusName rm msel
  | .barrett rd rs1 rs2 rm msel =>
    "barrett " ++ regName "f" rd.val ++ ", " ++ regName "f" rs1.val ++ ", "
      ++ regName "f" rs2.val ++ ", " ++ modulusName rm msel
  | .modexp rd rs1 rs2 rm msel =>
    "modexp " ++ regName "f" rd.val ++ ", " ++ regName "f" rs1.val ++ ", "
      ++ regName "f" rs2.val ++ ", " ++ modulusName rm msel
  | .modinv rd rs1 rm msel =>
    "modinv " ++ regName "f" rd.val ++ ", " ++ regName "f" rs1.val ++ ", "
      ++ modulusName rm msel
  | .padd pd ps1 ps2 =>
    "padd " ++ regName "p" pd.val ++ ", " ++ regName "p" ps1.val ++ ", " ++ regName "p" ps2.val
  | .pdbl pd ps1 => "pdbl " ++ regName "p" pd.val ++ ", " ++ regName "p" ps1.val
  | .smul pd ps1 rk gsel chk =>
    "smul " ++ regName "p" pd.val ++ ", " ++ regName "f" rk.val ++ ", "
      ++ basePointName ps1 gsel ++ (if chk then ", chk" else "")

/-- `smulg pD, fK` (R105). -/
def Instr.smulg (pd : PReg) (fk : FReg) : Instr := .smul pd 0 fk true false

/-- `keymul pD, fK` (R105, R172). -/
def Instr.keymul (pd : PReg) (fk : FReg) : Instr := .smul pd 0 fk true true

/-- `invp fD, fA` (R105). -/
def Instr.invp (fd fa : FReg) : Instr := .modinv fd fa 0 .curveP

/-- `fromm fD, fA, fOne, M` (R105, R123). -/
def Instr.fromm (fd fa fOne rm : FReg) (msel : ModSel) : Instr := .montmul fd fa fOne rm msel

end Sys2Proof
end

