-- ==== Sys2Proof/Machine/Arith.lean ====
section
/-! DEFINITION. The exact arithmetic of the field commands on unbounded numbers: Euclidean reduction
(R10), the modular inverse (R11), the Montgomery product (R121), the double-width reduction (R126)
and the exponentiation loop (R130). -/

namespace Sys2Proof.Machine

/-- `x mod m` of R10: the representative in `[0, m)`, for a possibly negative `x`. -/
def modNat (x : Int) (m : Nat) : Nat := (x % (m : Int)).toNat

/-- The extended Euclidean loop (§4.1 of the source, quoted in R134; any algorithm may serve, U13).
`t0` and `t1` are the cofactors of `r0` and `r1`; each turn makes `r1` smaller, and `fuel` bounds the
turns. -/
def euclidCofactor : Nat → Nat → Nat → Int → Int → Int
  | 0, _, _, t0, _ => t0
  | fuel + 1, r0, r1, t0, t1 =>
    if r1 = 0 then t0
    else euclidCofactor fuel r1 (r0 % r1) t1 (t0 - ((r0 / r1 : Nat) : Int) * t1)

/-- `inv_m(v)` of R11: the unique `x` in `[0, m)` with `(v * x) mod m = 1 mod m` when
`gcd(v mod m, m) = 1`.  R11 leaves it undefined otherwise, and every rule tests that first. -/
def invMod (v : Int) (m : Nat) : Nat :=
  modNat (euclidCofactor (m + 1) m (modNat v m) 0 1) m

/-- The Montgomery radix `R = 2^256` (R121). -/
def radix : Nat := 2 ^ 256

/-- The Montgomery product `a * b * inv_m(R) mod m` (R121, R122). -/
def montProduct (a b m : Nat) : Nat := a * b * invMod (radix : Nat) m % m

/-- The reduction of the 512-bit dividend `{hi, lo}` (R126). -/
def doubleReduce (hi lo m : Nat) : Nat := (hi * radix + lo) % m

/-- The loop of R130 over the bits `i - 1` down to 0 of the exponent `e`, from the running value `r`. -/
def powLoop (g e m : Nat) : Nat → Nat → Nat
  | 0, r => r
  | i + 1, r =>
    let r2 := r * r % m
    powLoop g e m i (if e.testBit i then r2 * g % m else r2)

/-- `g^e mod m` as the loop of R130 computes it, over the 256 bits of the exponent register. -/
def powMod (g e m : Nat) : Nat := powLoop g e m 256 (1 % m)

end Sys2Proof.Machine
end

