-- ==== Sys2Proof/Machine/PointArith.lean ====
section
/-! DEFINITION. The point type of R13, the functions `dbl` and `add` of R151 and R152, the double-and-add
loop of R171, and the well-formedness of `CURVE` (R8), which speaks of them. -/

namespace Sys2Proof.Machine

/-- `Point = Identity | Affine(x, y)` (R13). -/
inductive Point where
  | identity
  | affine (x y : Nat)
deriving DecidableEq, Repr

/-- Both coordinates of an affine point are field elements (R150); the identity has none to check. -/
def Point.inRange (p : Nat) : Point → Bool
  | .identity => true
  | .affine x y => decide (x < p) && decide (y < p)

/-- `dbl` of R151, over the prime `p` and the coefficient `a`. -/
def Point.dbl (p a : Nat) : Point → Point
  | .identity => .identity
  | .affine x y =>
    if y = 0 then .identity
    else
      let s : Int := modNat ((3 * x * x + a) * invMod (2 * y) p) p
      let x3 : Nat := modNat (s * s - 2 * x) p
      let y3 : Nat := modNat (s * (x - x3) - y) p
      .affine x3 y3

/-- `add` of R152. -/
def Point.add (p a : Nat) : Point → Point → Point
  | .identity, q2 => q2
  | .affine x1 y1, .identity => .affine x1 y1
  | .affine x1 y1, .affine x2 y2 =>
    if x1 = x2 ∧ y1 = y2 then Point.dbl p a (.affine x1 y1)
    else if x1 = x2 then .identity
    else
      let s : Int := modNat (((y1 : Int) - y2) * invMod ((x1 : Int) - x2) p) p
      let x3 : Nat := modNat (s * s - x1 - x2) p
      let y3 : Nat := modNat (s * (x1 - x3) - y1) p
      .affine x3 y3

/-- The loop of R171, on the scalar `k`, the accumulator and the addend.  `fuel` bounds the iterations:
one for each bit of `k` (R174). -/
def mulLoop (p a : Nat) : Nat → Nat → Point → Point → Point
  | 0, _, acc, _ => acc
  | fuel + 1, k, acc, addend =>
    if k = 0 then acc
    else
      mulLoop p a fuel (k / 2) (if k % 2 = 1 then Point.add p a acc addend else acc)
        (Point.dbl p a addend)

/-- The double-and-add product of R171 for a 256-bit scalar. -/
def Point.mul (p a k : Nat) (q : Point) : Point := mulLoop p a 256 k .identity q

/-- `q` added to itself `k` times, one addition at a time: the contract of R171, "the point obtained by
adding `P` to itself `k` times". -/
def Point.timesAdd (p a : Nat) (q : Point) : Nat → Point
  | 0 => .identity
  | k + 1 => Point.add p a (Point.timesAdd p a q k) q

/-- `-Affine(x, y) = Affine(x, (p - y) mod p)` (R154). -/
def Point.neg (p : Nat) : Point → Point
  | .identity => .identity
  | .affine x y => .affine x ((p - y) % p)

/-- The point satisfies the curve equation `y^2 = x^3 + a*x + b` over `F_p`, with coordinates in range
(R8); the identity is on every curve. -/
def Point.onCurve (c : Curve) : Point → Bool
  | .identity => true
  | .affine x y =>
    decide (x < c.p.toNat) && decide (y < c.p.toNat)
      && (y * y % c.p.toNat == (x * x * x + c.a.toNat * x + c.b.toNat) % c.p.toNat)

/-- The base point `G = Affine(CURVE.Gx, CURVE.Gy)` (R98). -/
def basePoint (c : Curve) : Point := .affine c.gx.toNat c.gy.toNat

/-- `CURVE` is well formed: the five conditions of R8, all of them decidable.  The bounds `p < 2^256` and
`n < 2^256` are the registers' width; `n` is the order of `G`, the least number of additions of `G` that
gives the identity.  Deciding it takes as long as counting to `n`. -/
abbrev curveWellFormed (c : Curve) : Prop :=
  Nat.Prime c.p.toNat ∧ 3 < c.p.toNat
    ∧ c.a.toNat < c.p.toNat ∧ c.b.toNat < c.p.toNat
    ∧ (4 * c.a.toNat ^ 3 + 27 * c.b.toNat ^ 2) % c.p.toNat ≠ 0
    ∧ Point.onCurve c (basePoint c) = true
    ∧ 2 ≤ c.n.toNat
    ∧ Point.timesAdd c.p.toNat c.a.toNat (basePoint c) c.n.toNat = .identity
    ∧ ∀ k, k < c.n.toNat → 0 < k →
        Point.timesAdd c.p.toNat c.a.toNat (basePoint c) k ≠ .identity

end Sys2Proof.Machine
end

