-- ==== Sys2Proof/Config.lean ====
section
/-! DEFINITION. The fixed parameters of R7, the two open parameters of this instance (R7, R8), and the
free values of the engine's working storage (R40, U7). -/

namespace Sys2Proof

namespace Config

/-- The operand width W (R6). -/
def operandWidth : Nat := 256

/-- The register window is 4096 bytes long and aligned to as many (R7, R66). -/
def windowBytes : Nat := 4096

/-- The constant of the ID register: `0xECC0` identifies the block, `0x0001` is the command set
version (R36, R2). -/
def idWord : Word := 0xECC00001#32

/-- Six numbers of which nothing is known.  Log entry 1. -/
opaque curveNumbers : Curve

/-- The toy instance T of 95_test_vectors.md: a well-formed `CURVE`, named only so that there is one. -/
def toyCurve : Curve := { p := 17, a := 2, b := 2, n := 19, gx := 5, gy := 1 }

/-- The open parameter `CURVE` of this instance (R8, D5, R242): the spec gives no number of it, so nothing
is known of it but that it is well formed, as the platform provides it.  Log entry 1. -/
def curve : Curve :=
  if Machine.curveWellFormed curveNumbers then curveNumbers else toyCurve

/-- The open parameter `BASE` of this instance (R66, D18), as a count of 4096-byte pages, so that
`BASE = 4096 * basePage` is aligned as R66 says.  Log entry 2. -/
opaque basePage : Nat

/-- FREE VALUE: what the engine's working storage holds after a command (R40, U7: any value), from
the storage before it, the command word, the field registers, the point registers and the curve.
Log entry 4. -/
opaque engineWorkAfterCommand : Nat → Word → Vector U256 16 → Vector PointReg 8 → Curve → Nat

/-- FREE VALUE: what the engine's working storage holds after a reset (R41: no value specified), from
the same arguments.  Log entry 4. -/
opaque engineWorkAfterReset : Nat → Word → Vector U256 16 → Vector PointReg 8 → Curve → Nat

end Config

end Sys2Proof
end

