-- ==== Sys2Proof/Machine/State.lean ====
section
/-! DEFINITION. The state of the block as plain data (10_state.md), the accesses its environment makes,
the reasons a step can stop, and the state after reset (R41, R240). -/

namespace Sys2Proof.Machine

/-- The error codes a command can report (R200).  Code 6 is reserved and codes 7 to 15 are never
reported (R206), so they have no constructor.  Log entry 12. -/
inductive ErrCode where
  /-- code 1: the word is illegal (R201) -/
  | illegalOp
  /-- code 2: the modulus cannot be used (R202) -/
  | invalidModulus
  /-- code 3: MODINV of a value with no inverse (R203) -/
  | notInvertible
  /-- code 4: SMUL with `chk = 1` and a scalar outside `[1, n)` (R204) -/
  | invalidScalar
  /-- code 5: an affine source point with a coordinate that is not below `p` (R205) -/
  | operandRange
deriving DecidableEq, Repr

/-- The STATUS register (R32).  `errcode = none` is code 0; the reserved bits are no state, they read
0. -/
structure Status where
  busy    : Bool
  done    : Bool
  err     : Bool
  ovr     : Bool
  wbusy   : Bool
  errcode : Option ErrCode
deriving DecidableEq, Repr

/-- The IE register (R34); its reserved bits are no state, they read 0. -/
structure IntEnable where
  doneIE : Bool
  errIE  : Bool
  protIE : Bool
deriving DecidableEq, Repr

/-- One thing that happens next to the block.  The total order of host accesses and engine steps of R72
is a list of these.  Log entry 3. -/
inductive Event where
  /-- A host read of `size` bytes at a bus address (R61, R65). -/
  | read (addr size : Nat)
  /-- A host write of `size` bytes at a bus address (R61, R65); `data` is the 32-bit value of a
  write of 4 bytes.  The block looks at no other write's data.  Log entry 6. -/
  | write (addr size : Nat) (data : Word)
  /-- The engine takes its turn: it completes the pending command, if there is one (R192). -/
  | engine
  /-- The reset input is asserted (R240). -/
  | resetAssert
  /-- The reset input is released (R240). -/
  | resetRelease
deriving DecidableEq, Repr

/-- The machine: the block's registers and hidden state (R20 to R41), and the model's own fields
(`admitted`, `pending`, `rdata`); `work` is a number in place of a storage with no given shape. -/
structure State where
  /-- `F0` to `F15` (R20). -/
  f         : Vector U256 16
  /-- `P0` to `P7` with their `inf` bits, which PINF gathers (R23, R37). -/
  p         : Vector PointReg 8
  /-- CMDLAT, the last accepted command word, read through CMD (R31, R40). -/
  cmdlat    : Word
  /-- STATUS (R32); its BUSY bit is the hidden state "pending or not" (R40). -/
  status    : Status
  /-- IE (R34). -/
  ie        : IntEnable
  /-- The curve registers, hardwired to `CURVE` (R27). -/
  curve     : Curve
  /-- The open parameter `BASE`, as a count of 4096-byte pages (R66). -/
  basePage  : Nat
  /-- The instance was found well formed when it was built (R8, R242).  The model's own field: a block
  that is not admitted is refused.  Log entry 1. -/
  admitted  : Bool
  /-- The reset input is asserted (R240).  Log entry 9. -/
  resetAsserted : Bool
  /-- The engine's internal working storage, whatever it holds, as one number (R40).  Its
  contents are free values and nothing reads them but the free values.  Log entry 4. -/
  work      : Nat
  /-- The accesses and engine turns still to come, the next one first (R16, R72).  The model's
  own field.  Log entry 3. -/
  pending   : List Event
  /-- The data the block returned, if the last host access was a read (R61).  The model's own
  field.  Log entry 5. -/
  rdata     : Option Word
deriving DecidableEq, Repr

/-- What stops the host's run (R65, R67, R207).  The block's state is unchanged.  All are SAFE: the spec
says the access gets a bus error and that a model treats it as a fault.  Log entry 6. -/
inductive Fault where
  /-- A read or write of the window that is not 4 bytes wide (R65); raised by `hostRead` and
  `hostWrite`. -/
  | busErrorSize
  /-- A 4-byte access at an offset that is no multiple of 4 (R65); raised by `hostRead` and
  `hostWrite`. -/
  | busErrorAlignment
  /-- An aligned 4-byte access to a reserved offset (R67); raised by `hostRead` and
  `hostWrite`. -/
  | busErrorReserved
deriving DecidableEq, Repr

/-- Where the model gives no meaning. -/
inductive Refusal where
  /-- The instruction has no meaning in this model yet; raised by refused arms of `exec`
  only.  SAFE. -/
  | notModelled (mnemonic : String)
  /-- "A model refuses an instance whose `CURVE` is not well formed" (R8, U3).  Raised by `advance` for
  every step of a block that `State.instantiate` did not admit.  SAFE.  Log entry 1. -/
  | malformedCurve
  /-- A host access outside the block's register window, which belongs to the platform (R71).
  Raised by `hostRead` and `hostWrite`.  SAFE.  Log entry 7. -/
  | outsideWindow
deriving DecidableEq, Repr

/-- STATUS after reset: `0x00000000` (R32). -/
def Status.reset : Status :=
  { busy := false, done := false, err := false, ovr := false, wbusy := false, errcode := none }

/-- IE after reset: `0x00000000` (R34). -/
def IntEnable.reset : IntEnable := { doneIE := false, errIE := false, protIE := false }

/-- The canonical identity, the reset value of every point register (R24, R26). -/
def identityReg : PointReg := { inf := true, x := 0, y := 0 }

/-- The state after reset of the instance with the curve `c` and the base address `4096 * basePage`
(R41, R240, R241): the block idle, the reset input released, and no host access placed. -/
def State.resetOf (c : Curve) (basePage : Nat) (admitted : Bool) : State :=
  { f := Vector.replicate 16 0
    p := Vector.replicate 8 identityReg
    cmdlat := 0
    status := Status.reset
    ie := IntEnable.reset
    curve := c
    basePage := basePage
    admitted := admitted
    resetAsserted := false
    work := 0
    pending := []
    rdata := none }

/-- An instance built with the curve `c` and reset (R242): it is admitted exactly when `c` is well formed,
and refused otherwise (R8). -/
def State.instantiate (c : Curve) (basePage : Nat) : State :=
  State.resetOf c basePage (decide (curveWellFormed c))

/-- The machine right after reset (R41): this instance, whose `CURVE` and `BASE` are open (R7).  Its `CURVE`
is well formed (`config_curve_wellFormed`), so that it is the state `State.instantiate` gives. -/
def State.reset : State := State.resetOf Config.curve Config.basePage true

end Sys2Proof.Machine
end

