-- ==== Sys2Proof/Machine/Flags.lean ====
section
/-! DEFINITION. The block has no arithmetic flags (R39): this file holds the bits software reads of STATUS,
IE and PINF, the write-one-to-clear rule, and the interrupt output. -/

namespace Sys2Proof.Machine

/-- The number of an error code (R200); code 0 is "no error". -/
def errCodeBits : Option ErrCode → BitVec 4
  | none => 0
  | some .illegalOp => 1
  | some .invalidModulus => 2
  | some .notInvertible => 3
  | some .invalidScalar => 4
  | some .operandRange => 5

/-- STATUS as a word (R32), its fields from bit 31 down to bit 0. -/
def statusWord (st : Status) : Word :=
  0#20 ++ errCodeBits st.errcode ++ 0#3 ++ BitVec.ofBool st.wbusy ++ BitVec.ofBool st.ovr
    ++ BitVec.ofBool st.err ++ BitVec.ofBool st.done ++ BitVec.ofBool st.busy

/-- A host write of `v` to STATUS (R33): DONE, ERR, OVR and WBUSY are cleared where `v` holds a 1. -/
def statusClear (st : Status) (v : Word) : Status :=
  { st with
    done := st.done && !v.getLsbD 1
    err := st.err && !v.getLsbD 2
    ovr := st.ovr && !v.getLsbD 3
    wbusy := st.wbusy && !v.getLsbD 4 }

/-- IE as a word (R34). -/
def ieWord (e : IntEnable) : Word :=
  0#29 ++ BitVec.ofBool e.protIE ++ BitVec.ofBool e.errIE ++ BitVec.ofBool e.doneIE

/-- What a host write of `v` leaves in IE (R34): the reserved bits are ignored. -/
def ieOfWord (v : Word) : IntEnable :=
  { doneIE := v.getLsbD 0, errIE := v.getLsbD 1, protIE := v.getLsbD 2 }

/-- PINF (R37): bit `i` is `P[i].inf`, and bits 31 to 8 read 0. -/
def pinfWord (p : Vector PointReg 8) : Word :=
  0#24 ++ BitVec.ofBool p[7].inf ++ BitVec.ofBool p[6].inf ++ BitVec.ofBool p[5].inf
    ++ BitVec.ofBool p[4].inf ++ BitVec.ofBool p[3].inf ++ BitVec.ofBool p[2].inf
    ++ BitVec.ofBool p[1].inf ++ BitVec.ofBool p[0].inf

/-- What a host write of `v` to PINF leaves in the point registers (R37): the coordinates keep their
values, the reserved bits of `v` are ignored. -/
def setPinf (p : Vector PointReg 8) (v : Word) : Vector PointReg 8 :=
  p.mapFinIdx fun i r _ => { r with inf := v.getLsbD i }

/-- The interrupt output `IRQ` (R38), evaluated from the current register values. -/
def State.irq (s : State) : Bool :=
  (s.status.done && s.ie.doneIE) || (s.status.err && s.ie.errIE)
    || ((s.status.ovr || s.status.wbusy) && s.ie.protIE)

end Sys2Proof.Machine
end

