-- ==== Sys2Proof/Machine/Ops.lean ====
section
/-! DEFINITION. The shared operations: register accessors and updates, the register window (R60 to R68),
accepting a command (R191), completing one or taking an error (R192, R213), and reset (R194, R240). -/

namespace Sys2Proof.Machine

/-! ### Registers -/

/-- `F[i]` (R12, R20). -/
def State.readF (s : State) (i : FReg) : U256 := s.f[i.val]

/-- `F[i] <- v` (R12). -/
def State.setF (s : State) (i : FReg) (v : U256) : State := { s with f := s.f.set i.val v }

/-- The three fields of point register `i` (R23). -/
def State.readPReg (s : State) (i : PReg) : PointReg := s.p[i.val]

/-- Point register `i` written whole (R69). -/
def State.setPReg (s : State) (i : PReg) (r : PointReg) : State := { s with p := s.p.set i.val r }

/-- All point registers written (used for their `inf` bits, which PINF gathers). -/
def State.setP (s : State) (p : Vector PointReg 8) : State := { s with p := p }

def State.setCmdlat (s : State) (c : Word) : State := { s with cmdlat := c }

def State.setStatus (s : State) (st : Status) : State := { s with status := st }

def State.setIE (s : State) (e : IntEnable) : State := { s with ie := e }

def State.setWork (s : State) (w : Nat) : State := { s with work := w }

def State.setPending (s : State) (l : List Event) : State := { s with pending := l }

def State.setResetAsserted (s : State) (b : Bool) : State := { s with resetAsserted := b }

def State.setRdata (s : State) (d : Option Word) : State := { s with rdata := d }

/-- A point register as a point (R24): with `inf = 1` the coordinates are not read. -/
def pointOfReg (r : PointReg) : Point :=
  if r.inf then .identity else .affine r.x.toNat r.y.toNat

/-- What a command writes to a point register (R24): the identity in canonical form, an affine point with
`inf = 0`. -/
def regOfPoint : Point → PointReg
  | .identity => identityReg
  | .affine x y => { inf := false, x := BitVec.ofNat 256 x, y := BitVec.ofNat 256 y }

/-- `P[i]` (R12). -/
def State.readP (s : State) (i : PReg) : Point := pointOfReg (s.readPReg i)

/-- `BASE` (R66). -/
def State.base (s : State) : Nat := 4096 * s.basePage

/-! ### 256-bit registers as bus words -/

/-- Word `j` of a 256-bit register: bits `32*j + 31` down to `32*j` (R62). -/
def wordOf (v : U256) (j : Fin 8) : Word := v.extractLsb' (32 * j.val) 32

/-- A host write of `w` to word `j` of a 256-bit register; the other bits are unchanged (R62). -/
def setWordOf (v : U256) (j : Fin 8) (w : Word) : U256 :=
  (v &&& ~~~((BitVec.allOnes 32).setWidth 256 <<< (32 * j.val))) ||| (w.setWidth 256 <<< (32 * j.val))

/-- The byte at bus address `BASE + off + k` of the word at `off`: bits `8*k + 7` down to `8*k` (R63). -/
def byteOfWord (w : Word) (k : Fin 4) : Byte := w.extractLsb' (8 * k.val) 8

/-- Byte `i` of the 32-byte big-endian form the document serializes a value in (R64). -/
def serialByte (v : U256) (i : Fin 32) : Byte := v.extractLsb' (248 - 8 * i.val) 8

/-! ### The register window -/

/-- The six curve registers (R27). -/
inductive CurveReg where
  | p | a | b | n | gx | gy
deriving DecidableEq, Repr

/-- One 32-bit location of the register window (R66). -/
inductive WindowReg where
  | id
  | ctrl
  | status
  | ie
  | cmd
  | pinf
  | f (i : FReg) (j : Fin 8)
  | px (i : PReg) (j : Fin 8)
  | py (i : PReg) (j : Fin 8)
  | curve (r : CurveReg) (j : Fin 8)
deriving DecidableEq, Repr

/-- The position of a curve register in the block at `0x500` (R27). -/
def CurveReg.index : CurveReg → Nat
  | .p => 0 | .a => 1 | .b => 2 | .n => 3 | .gx => 4 | .gy => 5

/-- The curve register at a position of the block at `0x500` (R27). -/
def CurveReg.ofIndex : Nat → Option CurveReg
  | 0 => some .p | 1 => some .a | 2 => some .b | 3 => some .n | 4 => some .gx | 5 => some .gy
  | _ => none

/-- The offset of a location, as the map of R66 gives it. -/
def WindowReg.offset : WindowReg → Nat
  | .id => 0x000
  | .ctrl => 0x004
  | .status => 0x008
  | .ie => 0x00C
  | .cmd => 0x010
  | .pinf => 0x014
  | .f i j => 0x100 + 0x20 * i.val + 4 * j.val
  | .px i j => 0x300 + 0x40 * i.val + 4 * j.val
  | .py i j => 0x320 + 0x40 * i.val + 4 * j.val
  | .curve r j => 0x500 + 0x20 * r.index + 4 * j.val

/-- The word index `j` of an aligned offset inside a 256-bit register (R62). -/
def wordIndex (off : Nat) : Fin 8 := ⟨off / 4 % 8, Nat.mod_lt _ (by decide)⟩

/-- The location at an aligned offset (R66); none where the offset is reserved (R67). -/
def locate (off : Nat) : Option WindowReg :=
  if off < 0x018 then
    match off / 4 with
    | 0 => some .id
    | 1 => some .ctrl
    | 2 => some .status
    | 3 => some .ie
    | 4 => some .cmd
    | _ => some .pinf
  else if off < 0x100 then none
  else if off < 0x300 then
    some (.f ⟨(off - 0x100) / 0x20 % 16, Nat.mod_lt _ (by decide)⟩ (wordIndex off))
  else if off < 0x500 then
    let i : PReg := ⟨(off - 0x300) / 0x40 % 8, Nat.mod_lt _ (by decide)⟩
    if off / 0x20 % 2 = 0 then some (.px i (wordIndex off)) else some (.py i (wordIndex off))
  else (CurveReg.ofIndex ((off - 0x500) / 0x20)).map fun r => .curve r (wordIndex off)

/-- The value of a curve register (R27). -/
def curveReg (c : Curve) : CurveReg → U256
  | .p => c.p
  | .a => c.a
  | .b => c.b
  | .n => c.n
  | .gx => c.gx
  | .gy => c.gy

/-- What a host read of a location returns (R27, R31 to R37, R62).  No read changes any state (R68). -/
def State.readReg (s : State) : WindowReg → Word
  | .id => Config.idWord
  | .ctrl => 0
  | .status => statusWord s.status
  | .ie => ieWord s.ie
  | .cmd => s.cmdlat
  | .pinf => pinfWord s.p
  | .f i j => wordOf (s.readF i) j
  | .px i j => wordOf (s.readPReg i).x j
  | .py i j => wordOf (s.readPReg i).y j
  | .curve r j => wordOf (curveReg s.curve r) j

/-! ### Reset, acceptance, completion -/

/-- A hardware or soft reset (R194, R240): every register at its reset value (R41), a pending command
discarded; the curve registers, BASE, the reset input and what the host has still to do are unchanged
(log entry 15).  The working storage takes a free value (R41). -/
def State.blockReset (s : State) : State :=
  { State.resetOf s.curve s.basePage s.admitted with
    resetAsserted := s.resetAsserted
    work := Config.engineWorkAfterReset s.work s.cmdlat s.f s.p s.curve
    pending := s.pending
    rdata := s.rdata }

/-- Acceptance of the word `c`, legal or not (R191). -/
def State.accept (s : State) (c : Word) : State :=
  (s.setCmdlat c).setStatus
    { s.status with done := false, err := false, errcode := none, busy := true }

/-- What a command that succeeds writes: its single destination, or nothing for NOP (R192). -/
inductive Effect where
  | nothing
  | field (rd : FReg) (v : Nat)
  | point (pd : PReg) (q : Point)
deriving DecidableEq, Repr

/-- The destination written in one step (R69). -/
def State.apply (s : State) : Effect → State
  | .nothing => s
  | .field rd v => s.setF rd (BitVec.ofNat 256 v)
  | .point pd q => s.setPReg pd (regOfPoint q)

/-- The engine's working storage after a command: a free value (R40, U7). -/
def State.redrawWork (s : State) : State :=
  s.setWork (Config.engineWorkAfterCommand s.work s.cmdlat s.f s.p s.curve)

/-- A command that succeeds (R192, the `Ok` branch). -/
def State.succeed (s : State) (e : Effect) : State :=
  (s.redrawWork.apply e).setStatus { s.status with errcode := none, done := true, busy := false }

/-- TAKING AN ERROR, the block's only kind of exception (R192, the `Error` branch; R213): no data register
is written, nothing is saved, and STATUS reports the code. -/
def State.raise (s : State) (code : ErrCode) : State :=
  s.redrawWork.setStatus
    { s.status with errcode := some code, err := true, done := true, busy := false }

/-- The result of a command: its effect, or the error it raises (R192). -/
abbrev Result := Except ErrCode Effect

/-- Completion (R192), the same one step for every command. -/
def State.complete (s : State) : Result → State
  | .ok e => s.succeed e
  | .error code => s.raise code

/-- Completion of a legal command as the outcome of its meaning (R192): a command always completes. -/
def State.finish (s : State) (r : Result) : Host.Outcome State Fault Refusal := .next (s.complete r)

/-- A CMD write (R190): accepted while idle, dropped with OVR set while busy (R251). -/
def State.issue (s : State) (c : Word) : State :=
  if s.status.busy then s.setStatus { s.status with ovr := true } else s.accept c

/-- A write to a field register, a point register or PINF (R250): `s'` while idle, dropped with WBUSY set
while busy. -/
def State.writeOperand (s s' : State) : State :=
  if s.status.busy then s.setStatus { s.status with wbusy := true } else s'

/-- What a host write of `v` to a location does (R28, R31 to R37, R62, R194, R250, R251). -/
def State.writeReg (s : State) (r : WindowReg) (v : Word) : State :=
  match r with
  | .id => s
  | .ctrl => if v.getLsbD 0 then s.blockReset else s
  | .status => s.setStatus (statusClear s.status v)
  | .ie => s.setIE (ieOfWord v)
  | .cmd => s.issue v
  | .pinf => s.writeOperand (s.setP (setPinf s.p v))
  | .f i j => s.writeOperand (s.setF i (setWordOf (s.readF i) j v))
  | .px i j =>
    s.writeOperand
      (s.setPReg i { s.readPReg i with x := setWordOf (s.readPReg i).x j v })
  | .py i j =>
    s.writeOperand
      (s.setPReg i { s.readPReg i with y := setWordOf (s.readPReg i).y j v })
  | .curve _ _ => s

/-! ### Host accesses -/

/-- Where a host access lands (R61, R65, R66, R67, R71). -/
inductive Target where
  | location (r : WindowReg)
  | busError (e : Fault)
  | platform
deriving DecidableEq, Repr

/-- The routing of a host access: outside the window it is the platform's (R71); inside, only an aligned
4-byte access to an offset that is not reserved is accepted (R65, R67). -/
def State.route (s : State) (addr size : Nat) : Target :=
  if addr < s.base ∨ s.base + Config.windowBytes ≤ addr then .platform
  else if size ≠ 4 then .busError .busErrorSize
  else if (addr - s.base) % 4 ≠ 0 then .busError .busErrorAlignment
  else
    match locate (addr - s.base) with
    | some r => .location r
    | none => .busError .busErrorReserved

/-- `MemRead` (R61): the data stands in `rdata`, and nothing else changes (R68). -/
def State.hostRead (s : State) (addr size : Nat) : Host.Outcome State Fault Refusal :=
  match s.route addr size with
  | .location r => .next (s.setRdata (some (s.readReg r)))
  | .busError e => .fault e
  | .platform => .refused .outsideWindow

/-- `MemWrite` (R61).  While reset is asserted every register holds its reset value (R240), so that a write
to any location leaves it there.  Log entry 9. -/
def State.hostWrite (s : State) (addr size : Nat) (v : Word) :
    Host.Outcome State Fault Refusal :=
  match s.route addr size with
  | .location r => .next ((if s.resetAsserted then s else s.writeReg r v).setRdata none)
  | .busError e => .fault e
  | .platform => .refused .outsideWindow

end Sys2Proof.Machine
end

