-- ==== Sys2Proof/Machine/Operands.lean ====
section
/-! DEFINITION. The operand forms: the modulus of an F-format command (R95), the point and the scalar of
SMUL (R98, R170, R171), and the range check on point sources (R150). -/

namespace Sys2Proof.Machine

/-- `modulus(cmd)` (R95). -/
def State.modulus (s : State) (rm : FReg) : ModSel → Nat
  | .freg => (s.readF rm).toNat
  | .curveP => s.curve.p.toNat
  | .curveN => s.curve.n.toNat

/-- `F[i]` as an unsigned number (R20, R170). -/
def State.natF (s : State) (i : FReg) : Nat := (s.readF i).toNat

/-- The point SMUL multiplies (R98, R171): `G` with `gsel = 1`, else `P[ps1]`. -/
def State.mulSource (s : State) (ps1 : PReg) (gsel : Bool) : Point :=
  if gsel then basePoint s.curve else s.readP ps1

/-- The range check on one point source (R150). -/
def State.inRange (s : State) (q : Point) : Bool := Point.inRange s.curve.p.toNat q

/-- `dbl` over the curve registers (R151). -/
def State.dbl (s : State) (q : Point) : Point := Point.dbl s.curve.p.toNat s.curve.a.toNat q

/-- `add` over the curve registers (R152). -/
def State.add (s : State) (q1 q2 : Point) : Point :=
  Point.add s.curve.p.toNat s.curve.a.toNat q1 q2

/-- The double-and-add product over the curve registers (R171). -/
def State.mul (s : State) (k : Nat) (q : Point) : Point :=
  Point.mul s.curve.p.toNat s.curve.a.toNat k q

end Sys2Proof.Machine
end

