-- ==== Sys2Proof/Machine/Control.lean ====
section
/-! DEFINITION. The meaning of NOP (43_control.md). -/

namespace Sys2Proof.Machine

/-- NOP (R193): it writes no data register and completes. -/
def execNop (s : State) : Host.Outcome State Fault Refusal := s.finish (.ok .nothing)

end Sys2Proof.Machine
end

