-- ==== Sys2Proof/Machine/Field.lean ====
section
/-! DEFINITION. The meanings of the field commands (40_field_arithmetic.md): all sources are read, the
modulus is checked, and one field register is written (R120). -/

namespace Sys2Proof.Machine

/-- The result of MONTMUL (R122). -/
def montmulResult (rd : FReg) (a b m : Nat) : Result :=
  if m = 0 ∨ m % 2 = 0 then .error .invalidModulus else .ok (.field rd (montProduct a b m))

/-- The result of BARRETT (R126). -/
def barrettResult (rd : FReg) (hi lo m : Nat) : Result :=
  if m = 0 then .error .invalidModulus else .ok (.field rd (doubleReduce hi lo m))

/-- The result of MODEXP (R130). -/
def modexpResult (rd : FReg) (g e m : Nat) : Result :=
  if m = 0 ∨ m % 2 = 0 then .error .invalidModulus else .ok (.field rd (powMod g e m))

/-- The result of MODINV (R134). -/
def modinvResult (rd : FReg) (a m : Nat) : Result :=
  if m = 0 then .error .invalidModulus
  else if Nat.gcd (a % m) m ≠ 1 then .error .notInvertible
  else .ok (.field rd (invMod a m))

/-- MONTMUL (R122). -/
def execMontmul (rd rs1 rs2 rm : FReg) (msel : ModSel) (s : State) :
    Host.Outcome State Fault Refusal :=
  s.finish (montmulResult rd (s.natF rs1) (s.natF rs2) (s.modulus rm msel))

/-- BARRETT (R126). -/
def execBarrett (rd rs1 rs2 rm : FReg) (msel : ModSel) (s : State) :
    Host.Outcome State Fault Refusal :=
  s.finish (barrettResult rd (s.natF rs1) (s.natF rs2) (s.modulus rm msel))

/-- MODEXP (R130). -/
def execModexp (rd rs1 rs2 rm : FReg) (msel : ModSel) (s : State) :
    Host.Outcome State Fault Refusal :=
  s.finish (modexpResult rd (s.natF rs1) (s.natF rs2) (s.modulus rm msel))

/-- MODINV (R134). -/
def execModinv (rd rs1 rm : FReg) (msel : ModSel) (s : State) :
    Host.Outcome State Fault Refusal :=
  s.finish (modinvResult rd (s.natF rs1) (s.modulus rm msel))

end Sys2Proof.Machine
end

