-- ==== Sys2Proof/Machine/PointCommands.lean ====
section
/-! DEFINITION. The meanings of the point commands (41_point_ops.md, 42_scalar_mult.md): all sources are
read and checked, and one point register is written (R150). -/

namespace Sys2Proof.Machine

/-- The result of PDBL on the source `q` (R151). -/
def pdblResult (s : State) (pd : PReg) (q : Point) : Result :=
  if s.inRange q then .ok (.point pd (s.dbl q)) else .error .operandRange

/-- The result of PADD on the sources `q1` and `q2` (R152). -/
def paddResult (s : State) (pd : PReg) (q1 q2 : Point) : Result :=
  if s.inRange q1 && s.inRange q2 then .ok (.point pd (s.add q1 q2)) else .error .operandRange

/-- The result of SMUL on the scalar `k` and the point `q` (R171); the scalar check comes before the range
check (R211). -/
def smulResult (s : State) (pd : PReg) (chk : Bool) (k : Nat) (q : Point) : Result :=
  if chk = true ∧ (k = 0 ∨ s.curve.n.toNat ≤ k) then .error .invalidScalar
  else if s.inRange q then .ok (.point pd (s.mul k q))
  else .error .operandRange

/-- PADD (R152). -/
def execPadd (pd ps1 ps2 : PReg) (s : State) : Host.Outcome State Fault Refusal :=
  s.finish (paddResult s pd (s.readP ps1) (s.readP ps2))

/-- PDBL (R151). -/
def execPdbl (pd ps1 : PReg) (s : State) : Host.Outcome State Fault Refusal :=
  s.finish (pdblResult s pd (s.readP ps1))

/-- SMUL (R171). -/
def execSmul (pd ps1 : PReg) (rk : FReg) (gsel chk : Bool) (s : State) :
    Host.Outcome State Fault Refusal :=
  s.finish (smulResult s pd chk (s.natF rk) (s.mulSource ps1 gsel))

end Sys2Proof.Machine
end

