-- ==== Sys2Proof/Machine/Dispatch.lean ====
section
/-! DEFINITION. Dispatch (R195): the engine's completion step for one legal command, by its mnemonic. -/

namespace Sys2Proof.Machine

/-- `execute(c)` and completion of a legal command (R192, R195). -/
def exec (i : Instr) (s : State) : Host.Outcome State Fault Refusal :=
  match i with
  | .nop => Sys2Proof.Machine.execNop s
  | .montmul rd rs1 rs2 rm msel => Sys2Proof.Machine.execMontmul rd rs1 rs2 rm msel s
  | .barrett rd rs1 rs2 rm msel => Sys2Proof.Machine.execBarrett rd rs1 rs2 rm msel s
  | .modexp rd rs1 rs2 rm msel => Sys2Proof.Machine.execModexp rd rs1 rs2 rm msel s
  | .modinv rd rs1 rm msel => Sys2Proof.Machine.execModinv rd rs1 rm msel s
  | .padd pd ps1 ps2 => Sys2Proof.Machine.execPadd pd ps1 ps2 s
  | .pdbl pd ps1 => Sys2Proof.Machine.execPdbl pd ps1 s
  | .smul pd ps1 rk gsel chk => Sys2Proof.Machine.execSmul pd ps1 rk gsel chk s

end Sys2Proof.Machine
end

