-- ==== Sys2Proof/Machine/Engine.lean ====
section
/-! DEFINITION. The engine's turn (R192) and what one event does to the block (R72). -/

namespace Sys2Proof.Machine

/-- The engine's only step (R192): enabled exactly when BUSY is 1, it executes the latched word, or takes
ILLEGAL_OP where the word is illegal (R201).  While idle the block does nothing (R241). -/
def engineTurn (s : State) : Host.Outcome State Fault Refusal :=
  if s.status.busy then
    match decode s.cmdlat with
    | .ok i => exec i s
    | .error _ => .next (s.raise .illegalOp)
  else .next s

/-- One event of the total order of R72, in the state that has it no longer before it. -/
def runEvent (e : Event) (s : State) : Host.Outcome State Fault Refusal :=
  match e with
  | .read addr size => s.hostRead addr size
  | .write addr size v => s.hostWrite addr size v
  | .engine => engineTurn s
  | .resetAssert => .next (s.blockReset.setResetAsserted true)
  | .resetRelease => .next (s.setResetAsserted false)

/-- The next thing to happen: the first pending event, and with none left the engine's turn, which the
spec's fairness grants (R192).  Log entry 3. -/
def nextEvent (s : State) : Host.Outcome State Fault Refusal :=
  match s.pending with
  | [] => engineTurn s
  | e :: rest => runEvent e (s.setPending rest)

/-- What happens next to an admitted block; the instance is refused as a whole where its `CURVE` was not
well formed (R8).  Log entry 1. -/
def advance (s : State) : Host.Outcome State Fault Refusal :=
  if s.admitted then nextEvent s else .refused .malformedCurve

/-- The word `w` accepted as the pending command (R191), and the engine's turn next. -/
def placeCommand (s : State) (nbits w : Nat) : State :=
  (s.accept (BitVec.ofNat 32 (w % 2 ^ nbits))).setPending (.engine :: s.pending)

end Sys2Proof.Machine
end

