-- ==== Sys2Proof/Machine/Step.lean ====
section
/-! DEFINITION. One step of the machine, and the placing of a command where the next step takes it. -/

namespace Sys2Proof.Machine

/-- One step: the next event of the total order of host accesses and engine steps (R16, R72). -/
def step (s : State) : Host.Outcome State Fault Refusal := advance s

/-- `s` with the command word `w` (of `nbits` bits, those above 0) accepted and the engine's turn next, so
that the next step runs it.  The block fetches nothing (R30, R74): a command comes to it by
acceptance (R191).  Log entry 8. -/
def State.withFetchWord (s : State) (nbits w : Nat) : State := placeCommand s nbits w

end Sys2Proof.Machine
end

