-- ==== Sys2Proof/Safety.lean ====
section
/-! DEFINITION. The terms the claims use: what a completed and a failed command leave behind, which
location a command may write, what the host's accesses look like, and the consistency of the block. -/

namespace Sys2Proof.Machine

/-- What every command that succeeds leaves (R192): STATUS reports success, and nothing else but its
destination (and the unobservable working storage) has changed. -/
def Completed (s t : State) : Prop :=
  t.status = { s.status with errcode := none, done := true, busy := false }
    ∧ t.cmdlat = s.cmdlat ∧ t.ie = s.ie ∧ t.curve = s.curve ∧ t.basePage = s.basePage
    ∧ t.admitted = s.admitted ∧ t.resetAsserted = s.resetAsserted
    ∧ t.pending = s.pending ∧ t.rdata = s.rdata

/-- A command succeeded with at most the field register `rd` written. -/
def CompletedField (s t : State) (rd : FReg) : Prop :=
  Completed s t ∧ t.p = s.p ∧ ∀ j, j ≠ rd → t.readF j = s.readF j

/-- A command succeeded with at most the point register `pd` written. -/
def CompletedPoint (s t : State) (pd : PReg) : Prop :=
  Completed s t ∧ t.f = s.f ∧ ∀ j, j ≠ pd → t.readPReg j = s.readPReg j

/-- What a command that raises `code` leaves (R213): STATUS reports the error, and no data register is
written. -/
def Failed (s t : State) (code : ErrCode) : Prop :=
  t.status = { s.status with errcode := some code, err := true, done := true, busy := false }
    ∧ t.f = s.f ∧ t.p = s.p
    ∧ t.cmdlat = s.cmdlat ∧ t.ie = s.ie ∧ t.curve = s.curve ∧ t.basePage = s.basePage
    ∧ t.admitted = s.admitted ∧ t.resetAsserted = s.resetAsserted
    ∧ t.pending = s.pending ∧ t.rdata = s.rdata

/-- Every register of the block holds its reset value (R41). -/
def State.registersAtReset (t : State) : Prop :=
  (∀ i, t.readF i = 0) ∧ (∀ i, t.readPReg i = identityReg)
    ∧ t.cmdlat = 0 ∧ t.status = Status.reset ∧ t.ie = IntEnable.reset

/-- Every register of the block at its reset value, the instance as in `s` (R41, R240). -/
def BlockIsReset (s t : State) : Prop :=
  t.registersAtReset ∧ t.curve = s.curve ∧ t.basePage = s.basePage ∧ t.admitted = s.admitted

/-- The two states differ in the engine's working storage at most (R40). -/
def SameButWork (s t : State) : Prop := s.setWork 0 = t.setWork 0

/-- The field register an instruction names as its destination (R92). -/
def destField : Instr → Option FReg
  | .nop => none
  | .montmul rd _ _ _ _ => some rd
  | .barrett rd _ _ _ _ => some rd
  | .modexp rd _ _ _ _ => some rd
  | .modinv rd _ _ _ => some rd
  | .padd _ _ _ => none
  | .pdbl _ _ => none
  | .smul _ _ _ _ _ => none

/-- The point register an instruction names as its destination (R93). -/
def destPoint : Instr → Option PReg
  | .nop => none
  | .montmul _ _ _ _ _ => none
  | .barrett _ _ _ _ _ => none
  | .modexp _ _ _ _ _ => none
  | .modinv _ _ _ _ => none
  | .padd pd _ _ => some pd
  | .pdbl pd _ => some pd
  | .smul pd _ _ _ _ => some pd

/-- The location of the window may read differently after the instruction: STATUS, the words of its
destination, and PINF where the destination is a point register (R21, R25, R37). -/
def mayChange (i : Instr) : WindowReg → Bool
  | .id => false
  | .ctrl => false
  | .status => true
  | .ie => false
  | .cmd => false
  | .pinf => (destPoint i).isSome
  | .f k _ => destField i == some k
  | .px k _ => destPoint i == some k
  | .py k _ => destPoint i == some k
  | .curve _ _ => false

/-- The block is admitted and the next event is a host read of the word at window offset `off` (R61). -/
def HostReads (s : State) (off : Nat) (rest : List Event) : Prop :=
  s.pending = .read (s.base + off) 4 :: rest ∧ s.admitted = true

/-- The block is admitted and out of reset, and the next event is a host write of `v` to the word at window
offset `off` (R61). -/
def HostWrites (s : State) (off : Nat) (v : Word) (rest : List Event) : Prop :=
  s.pending = .write (s.base + off) 4 v :: rest ∧ s.admitted = true ∧ s.resetAsserted = false

/-- The block is admitted and it is the engine's turn, with `rest` to come after it: the turn stands first in
the list of events, or the list is empty. -/
def EngineIsNext (s : State) (rest : List Event) : Prop :=
  (s.pending = .engine :: rest ∨ (s.pending = [] ∧ rest = [])) ∧ s.admitted = true

/-- The block is consistent: while a command is pending DONE, ERR and ERRCODE are clear (R191), ERR stands
only with an error code (R192, R33), while reset is asserted every register holds its reset value
(R240), and an admitted block has a well-formed `CURVE` (R8). -/
def State.consistent (s : State) : Prop :=
  (s.status.busy = true →
      s.status.done = false ∧ s.status.err = false ∧ s.status.errcode = none)
    ∧ (s.status.err = true → s.status.errcode ≠ none)
    ∧ (s.resetAsserted = true → s.registersAtReset)
    ∧ (s.admitted = true → curveWellFormed s.curve)

/-- The bus accepts the event: an engine turn, a reset, or an access that lands on a location (R65,
R67). -/
def State.accepts (s : State) : Event → Bool
  | .read addr size =>
    match s.route addr size with
    | .location _ => true
    | .busError _ => false
    | .platform => false
  | .write addr size _ =>
    match s.route addr size with
    | .location _ => true
    | .busError _ => false
    | .platform => false
  | .engine => true
  | .resetAssert => true
  | .resetRelease => true

/-- A safe run: the instance is admitted (R8), and every access the host has still to make is one the bus
accepts (R65, R67). -/
def State.safe (s : State) : Prop :=
  s.admitted = true ∧ ∀ e ∈ s.pending, s.accepts e = true

end Sys2Proof.Machine
end

