-- ==== Sys2Proof/Certificates/Slice0/Obligations.lean ====
section
/-! DEFINITION. The statements about the machine that the provers settle. -/

open Sys2Proof Sys2Proof.Machine

/-! ### Reset (R22, R26, R41, R240) -/

/-- R41: what the window reads after reset, and IRQ. -/
def Obligations.ResetReadings : Prop :=
  (∀ i, State.reset.readF i = 0)
    ∧ (∀ i, State.reset.readPReg i = { inf := true, x := 0, y := 0 })
    ∧ State.reset.readReg .pinf = 0x000000FF#32
    ∧ State.reset.curve = Config.curve
    ∧ State.reset.readReg .cmd = 0x00000000#32
    ∧ State.reset.readReg .status = 0x00000000#32
    ∧ State.reset.readReg .ie = 0x00000000#32
    ∧ State.reset.readReg .ctrl = 0x00000000#32
    ∧ State.reset.readReg .id = 0xECC00001#32
    ∧ State.reset.irq = false

/-- R240: asserting the reset input puts every register at its reset value, discards a pending command and
keeps the instance; while reset is asserted every step leaves the registers there, a host write to any
location too; releasing it leaves them there and changes nothing else.  The reset input as events, and
the bus response during reset, are the model's (log entries 3, 5, 9 and 15). -/
def Obligations.HardResetResetsTheBlock : Prop :=
  (∀ (s : State) rest, s.admitted = true → s.pending = .resetAssert :: rest →
    ∃ t, step s = .next t ∧ BlockIsReset s t ∧ t.resetAsserted = true ∧ t.irq = false
      ∧ t.pending = rest)
  ∧ (∀ s t : State, s.resetAsserted = true → s.registersAtReset → step s = .next t →
    BlockIsReset s t ∧ t.irq = false
      ∧ (t.resetAsserted = true ∨ ∃ rest, s.pending = .resetRelease :: rest))
  ∧ (∀ (s : State) r v rest, s.admitted = true → s.resetAsserted = true →
    s.pending = .write (s.base + WindowReg.offset r) 4 v :: rest →
    step s = .next { s with pending := rest, rdata := none })
  ∧ (∀ (s : State) rest, s.admitted = true → s.pending = .resetRelease :: rest →
    step s = .next { s with resetAsserted := false, pending := rest })

/-- R194 and R35: a CTRL write with bit 0 set resets the block at once, busy or not; one with bit 0
clear changes no register.  That the host's later accesses stay is log entry 15, and that a write leaves
no bus response log entry 5, both the model's. -/
def Obligations.SoftResetResetsTheBlock : Prop :=
  ∀ (s : State) v rest, HostWrites s 0x004 v rest →
    ∃ t, step s = .next t ∧ t.pending = rest
      ∧ (v.getLsbD 0 = true → BlockIsReset s t ∧ t.irq = false)
      ∧ (v.getLsbD 0 = false → t = { s with pending := rest, rdata := none })

/-- R194: a soft reset clears whatever the registers held: two blocks of the same instance that differ
in every register end alike but for the unobservable working storage.  It rests on log entries 3, 5
and 15. -/
def Obligations.SoftResetForgetsEveryRegister : Prop :=
  ∀ s1 s2 v rest t1 t2, HostWrites s1 0x004 v rest → HostWrites s2 0x004 v rest →
    v.getLsbD 0 = true → s1.curve = s2.curve → s1.basePage = s2.basePage →
    step s1 = .next t1 → step s2 = .next t2 → SameButWork t1 t2

/-! ### Invariants of every step -/

/-- The invariant of the next statement holds after reset. -/
def Obligations.ResetIsConsistent : Prop := State.reset.consistent

/-- Every step keeps STATUS consistent (R191, R192, R33), keeps the registers at their reset values while
reset is asserted (R240), and keeps an admitted block's `CURVE` well formed (R8). -/
def Obligations.StepKeepsStatusConsistent : Prop :=
  ∀ s t, s.consistent → step s = .next t → t.consistent

/-- R28, R242: no host access, command or reset changes the curve registers, the base address or whether
the instance was admitted. -/
def Obligations.StepKeepsCurveAndBase : Prop :=
  ∀ s t, step s = .next t →
    t.curve = s.curve ∧ t.basePage = s.basePage ∧ t.admitted = s.admitted

/-- R70, R252: as long as a command stays pending, every field register, point register, PINF and CMD
keeps its value, whatever the host does. -/
def Obligations.PendingCommandFreezesData : Prop :=
  ∀ s t, s.status.busy = true → step s = .next t → t.status.busy = true →
    t.f = s.f ∧ t.p = s.p ∧ t.cmdlat = s.cmdlat
      ∧ t.readReg .pinf = s.readReg .pinf ∧ t.readReg .cmd = s.readReg .cmd

/-- R32, R192: DONE becomes 1 only by the completion of a pending command. -/
def Obligations.DoneRisesOnlyAtCompletion : Prop :=
  ∀ s t, step s = .next t → s.status.done = false → t.status.done = true →
    s.status.busy = true ∧ t.status.busy = false

/-- R40: no result depends on the engine's working storage: two states that differ in it alone take
steps that differ in it alone, and stop alike. -/
def Obligations.WorkingStorageIsUnobservable : Prop :=
  ∀ s1 s2, SameButWork s1 s2 →
    (∀ t1, step s1 = .next t1 → ∃ t2, step s2 = .next t2 ∧ SameButWork t1 t2)
      ∧ (∀ e, step s1 = .fault e → step s2 = .fault e)
      ∧ (∀ e, step s1 = .refused e → step s2 = .refused e)

/-- R192: a pending command completes, or is discarded by a reset among the events still to come, after
finitely many steps: at most one more than those events. -/
def Obligations.PendingCommandCompletes : Prop :=
  ∀ s : State, s.safe → s.status.busy = true →
    ∃ k t, k ≤ s.pending.length + 1 ∧ Host.Core.run Sys2Proof.core k s = .next t
      ∧ t.status.busy = false

/-! ### Encoding (R90 to R105) -/

/-- Decoding the word of a well-formed command gives the command back, for every command and every
operand. -/
def Obligations.DecodeOfEncode : Prop :=
  ∀ i : Instr, i.wellFormed = true → decode (encode i) = .ok i

/-- A word has at most one reading: the command a word decodes to is well formed and has that word. -/
def Obligations.EncodeOfDecode : Prop :=
  ∀ (c : Word) (i : Instr), decode c = .ok i → i.wellFormed = true ∧ encode i = c

/-- R100: the words that decode are the legal words, opcode by opcode. -/
def Obligations.LegalWordsDecode : Prop :=
  ∀ c : Word, (∃ i, decode c = .ok i) ↔
    (bits c 31 26 = 0x00 ∧ bits c 25 0 = 0)
    ∨ ((bits c 31 26 = 0x01 ∨ bits c 31 26 = 0x02 ∨ bits c 31 26 = 0x03 ∨ bits c 31 26 = 0x04)
        ∧ bits c 7 0 = 0 ∧ bits c 9 8 ≠ 3 ∧ (bits c 9 8 = 0 ∨ bits c 13 10 = 0)
        ∧ (bits c 31 26 ≠ 0x04 ∨ bits c 17 14 = 0))
    ∨ (bits c 31 26 = 0x08 ∧ bits c 16 0 = 0)
    ∨ (bits c 31 26 = 0x09 ∧ bits c 19 0 = 0)
    ∨ (bits c 31 26 = 0x0A ∧ bits c 19 17 = 0 ∧ bits c 10 0 = 0
        ∧ (bits c 12 12 = 0 ∨ bits c 22 20 = 0))

/-- R101: for each mnemonic, a word is that command exactly when it matches under the row's mask and
the conditional checks hold. -/
def Obligations.MaskAndMatchSelectTheCommand : Prop :=
  ∀ c : Word,
    (decode c = .ok .nop ↔ c &&& 0xFFFFFFFF#32 = 0x00000000#32)
    ∧ ((∃ rd rs1 rs2 rm msel, decode c = .ok (.montmul rd rs1 rs2 rm msel)) ↔
        c &&& 0xFC0000FF#32 = 0x04000000#32
          ∧ bits c 9 8 ≠ 3 ∧ (bits c 9 8 ≠ 0 → bits c 13 10 = 0))
    ∧ ((∃ rd rs1 rs2 rm msel, decode c = .ok (.barrett rd rs1 rs2 rm msel)) ↔
        c &&& 0xFC0000FF#32 = 0x08000000#32
          ∧ bits c 9 8 ≠ 3 ∧ (bits c 9 8 ≠ 0 → bits c 13 10 = 0))
    ∧ ((∃ rd rs1 rs2 rm msel, decode c = .ok (.modexp rd rs1 rs2 rm msel)) ↔
        c &&& 0xFC0000FF#32 = 0x0C000000#32
          ∧ bits c 9 8 ≠ 3 ∧ (bits c 9 8 ≠ 0 → bits c 13 10 = 0))
    ∧ ((∃ rd rs1 rm msel, decode c = .ok (.modinv rd rs1 rm msel)) ↔
        c &&& 0xFC03C0FF#32 = 0x10000000#32
          ∧ bits c 9 8 ≠ 3 ∧ (bits c 9 8 ≠ 0 → bits c 13 10 = 0))
    ∧ ((∃ pd ps1 ps2, decode c = .ok (.padd pd ps1 ps2)) ↔
        c &&& 0xFC01FFFF#32 = 0x20000000#32)
    ∧ ((∃ pd ps1, decode c = .ok (.pdbl pd ps1)) ↔
        c &&& 0xFC0FFFFF#32 = 0x24000000#32)
    ∧ ((∃ pd ps1 rk gsel chk, decode c = .ok (.smul pd ps1 rk gsel chk)) ↔
        c &&& 0xFC0E07FF#32 = 0x28000000#32
          ∧ (bits c 12 12 = 1 → bits c 22 20 = 0))

/-- Worked encodings of R102, one for each command: the word decodes to the command its assembly form
names. -/
def Obligations.WorkedEncodingsDecode : Prop :=
  decode 0x00000000#32 = .ok .nop
    ∧ decode 0x04804C00#32 = .ok (.montmul 2 0 1 3 .freg)
    ∧ decode 0x0BFB4200#32 = .ok (.barrett 15 14 13 0 .curveN)
    ∧ decode 0x0D848100#32 = .ok (.modexp 6 1 2 0 .curveP)
    ∧ decode 0x11C40C00#32 = .ok (.modinv 7 1 3 .freg)
    ∧ decode 0x21020000#32 = .ok (.padd 2 0 1)
    ∧ decode 0x25B00000#32 = .ok (.pdbl 3 3)
    ∧ decode 0x2BE1E800#32 = .ok (.smul 7 6 15 false true)

/-! ### The step and the command lifecycle (R190 to R201) -/

/-- R192, R195: when a command is pending and it is the engine's turn, the step runs the instruction
its word decodes to; the step itself only takes the turn off the list of events. -/
def Obligations.StepRunsTheDecodedInstruction : Prop :=
  ∀ s i, s.admitted = true → s.status.busy = true → decode s.cmdlat = .ok i →
    (s.pending = [] → step s = exec i s)
      ∧ (∀ rest, s.pending = .engine :: rest → step s = exec i (s.setPending rest))

/-- R190, R191: an idle block that is given a command word and then the engine's turn runs that word.  The
list of events and the cleared bus response are the model's (log entries 3 and 5). -/
def Obligations.IssuedWordIsTheOneThatRuns : Prop :=
  ∀ (s : State) c i rest, HostWrites s 0x010 c (.engine :: rest) → s.status.busy = false →
    decode c = .ok i →
    ∃ t, step s = .next t
      ∧ step t = exec i (((s.accept c).setRdata none).setPending rest)

/-- R192, R241: while idle the engine's turn changes nothing. -/
def Obligations.IdleEngineDoesNothing : Prop :=
  ∀ s : State, s.admitted = true → s.status.busy = false →
    (s.pending = [] → step s = .next s)
      ∧ (∀ rest, s.pending = .engine :: rest → step s = .next (s.setPending rest))

/-- R190, R191: a CMD write to an idle block is accepted, legal or not: the word is latched, DONE, ERR and
ERRCODE are cleared, BUSY is set, and OVR, WBUSY and everything else stay. -/
def Obligations.CommandWriteIsAccepted : Prop :=
  ∀ (s : State) c rest, HostWrites s 0x010 c rest → s.status.busy = false →
    step s = .next { s with
      cmdlat := c
      status := { s.status with done := false, err := false, errcode := none, busy := true }
      pending := rest
      rdata := none }

/-- R251: a CMD write while a command is pending is dropped and sets OVR; the command in flight goes on
unchanged. -/
def Obligations.CommandWriteWhileBusyIsDropped : Prop :=
  ∀ (s : State) c rest, HostWrites s 0x010 c rest → s.status.busy = true →
    step s = .next { s with
      status := { s.status with ovr := true }
      pending := rest
      rdata := none }

/-- R99: a pending word that breaks any of the eight items completes with ILLEGAL_OP at the engine's turn,
wherever that stands in the order of events, and no register but STATUS changes. -/
def Obligations.IllegalWordsReportIllegalOp : Prop :=
  ∀ (s : State) rest, EngineIsNext s rest → s.status.busy = true →
    (bits s.cmdlat 31 26 ∉ [0x00, 0x01, 0x02, 0x03, 0x04, 0x08, 0x09, 0x0A]
      ∨ (bits s.cmdlat 31 26 = 0x00 ∧ bits s.cmdlat 25 0 ≠ 0)
      ∨ (bits s.cmdlat 31 26 ∈ [0x01, 0x02, 0x03, 0x04] ∧ bits s.cmdlat 7 0 ≠ 0)
      ∨ (bits s.cmdlat 31 26 ∈ [0x08, 0x09, 0x0A] ∧ bits s.cmdlat 10 0 ≠ 0)
      ∨ (bits s.cmdlat 31 26 ∈ [0x01, 0x02, 0x03, 0x04] ∧ bits s.cmdlat 9 8 = 3)
      ∨ (bits s.cmdlat 31 26 ∈ [0x01, 0x02, 0x03, 0x04]
          ∧ bits s.cmdlat 9 8 ≠ 0 ∧ bits s.cmdlat 13 10 ≠ 0)
      ∨ (bits s.cmdlat 31 26 = 0x04 ∧ bits s.cmdlat 17 14 ≠ 0)
      ∨ (bits s.cmdlat 31 26 = 0x08 ∧ bits s.cmdlat 16 11 ≠ 0)
      ∨ (bits s.cmdlat 31 26 = 0x09 ∧ bits s.cmdlat 19 11 ≠ 0)
      ∨ (bits s.cmdlat 31 26 = 0x0A ∧ (bits s.cmdlat 19 17 ≠ 0
          ∨ (bits s.cmdlat 12 12 = 1 ∧ bits s.cmdlat 22 20 ≠ 0)))) →
    ∃ t, step s = .next t ∧ Failed (s.setPending rest) t .illegalOp

/-- R193: NOP writes no data register; issued to an idle block it leaves DONE = 1, ERR = 0 and ERRCODE = 0;
a nonzero word with its opcode completes with ILLEGAL_OP. -/
def Obligations.NopCompletes : Prop :=
  (∀ s : State, ∃ t, exec .nop s = .next t ∧ Completed s t ∧ t.f = s.f ∧ t.p = s.p)
    ∧ (∀ s : State, ∃ t, exec .nop (s.accept 0) = .next t
        ∧ t.status = { s.status with
            busy := false, done := true, err := false, errcode := none })
    ∧ (∀ (s : State) rest, EngineIsNext s rest → s.status.busy = true → s.cmdlat ≠ 0 →
        bits s.cmdlat 31 26 = 0 →
        ∃ t, step s = .next t ∧ Failed (s.setPending rest) t .illegalOp)

/-! ### Field commands (R120 to R135) -/

/-- R122, R121: MONTMUL with an odd modulus writes the one value `x` in `[0, m)` with
`x * 2^256 = a * b (mod m)`, for any 256-bit operands, and nothing else. -/
def Obligations.MontmulResult : Prop :=
  ∀ s rd rs1 rs2 rm msel,
    s.modulus rm msel % 2 = 1 →
    ∃ t, exec (.montmul rd rs1 rs2 rm msel) s = .next t ∧ CompletedField s t rd
      ∧ t.natF rd < s.modulus rm msel
      ∧ t.natF rd * 2 ^ 256 % s.modulus rm msel
          = s.natF rs1 * s.natF rs2 % s.modulus rm msel

/-- R126: BARRETT with a nonzero modulus writes the 512-bit dividend `hi * 2^256 + lo` reduced, and
nothing else. -/
def Obligations.BarrettResult : Prop :=
  ∀ s rd rs1 rs2 rm msel,
    1 ≤ s.modulus rm msel →
    ∃ t, exec (.barrett rd rs1 rs2 rm msel) s = .next t ∧ CompletedField s t rd
      ∧ t.natF rd = (s.natF rs1 * 2 ^ 256 + s.natF rs2) % s.modulus rm msel

/-- R130: MODEXP with an odd modulus writes `g^e mod m` (with `0^0 = 1`), and nothing else: the 256-turn
loop of the rule computes the power. -/
def Obligations.ModexpResult : Prop :=
  ∀ s rd rs1 rs2 rm msel,
    s.modulus rm msel % 2 = 1 →
    ∃ t, exec (.modexp rd rs1 rs2 rm msel) s = .next t ∧ CompletedField s t rd
      ∧ t.natF rd = s.natF rs1 ^ s.natF rs2 % s.modulus rm msel

/-- R134, R11: MODINV of a value coprime to a nonzero modulus writes the one `x` in `[0, m)` with
`(a * x) mod m = 1 mod m`, and nothing else. -/
def Obligations.ModinvResult : Prop :=
  ∀ s rd rs1 rm msel,
    1 ≤ s.modulus rm msel →
    Nat.gcd (s.natF rs1 % s.modulus rm msel) (s.modulus rm msel) = 1 →
    ∃ t, exec (.modinv rd rs1 rm msel) s = .next t ∧ CompletedField s t rd
      ∧ t.natF rd < s.modulus rm msel
      ∧ s.natF rs1 * t.natF rd % s.modulus rm msel = 1 % s.modulus rm msel

/-- R202: a field command reports INVALID_MODULUS exactly when its modulus fails its condition; for a
well-formed `CURVE`, `p` never fails, and `n` fails on MONTMUL and MODEXP exactly when it is even. -/
def Obligations.InvalidModulusExactlyWhen : Prop :=
  ∀ s rd rs1 rs2 rm msel,
    ∃ t1 t2 t3 t4,
      exec (.montmul rd rs1 rs2 rm msel) s = .next t1
      ∧ exec (.modexp rd rs1 rs2 rm msel) s = .next t2
      ∧ exec (.barrett rd rs1 rs2 rm msel) s = .next t3
      ∧ exec (.modinv rd rs1 rm msel) s = .next t4
      ∧ (t1.status.errcode = some .invalidModulus ↔ s.modulus rm msel % 2 = 0)
      ∧ (t2.status.errcode = some .invalidModulus ↔ s.modulus rm msel % 2 = 0)
      ∧ (t3.status.errcode = some .invalidModulus ↔ s.modulus rm msel = 0)
      ∧ (t4.status.errcode = some .invalidModulus ↔ s.modulus rm msel = 0)
      ∧ (curveWellFormed s.curve → msel = .curveP →
          ∀ t ∈ [t1, t2, t3, t4], t.status.errcode ≠ some .invalidModulus)
      ∧ (curveWellFormed s.curve → msel = .curveN →
          (t1.status.errcode = some .invalidModulus ↔ s.curve.n.toNat % 2 = 0)
          ∧ (t2.status.errcode = some .invalidModulus ↔ s.curve.n.toNat % 2 = 0)
          ∧ t3.status.errcode ≠ some .invalidModulus
          ∧ t4.status.errcode ≠ some .invalidModulus)

/-- R203, R134, R211: MODINV fails with INVALID_MODULUS when `m = 0`, and else with NOT_INVERTIBLE when
`gcd(a mod m, m)` is not 1; the destination keeps its value. -/
def Obligations.ModinvErrors : Prop :=
  ∀ s rd rs1 rm msel,
    (s.modulus rm msel = 0 →
      ∃ t, exec (.modinv rd rs1 rm msel) s = .next t ∧ Failed s t .invalidModulus)
    ∧ (s.modulus rm msel ≠ 0 →
      Nat.gcd (s.natF rs1 % s.modulus rm msel) (s.modulus rm msel) ≠ 1 →
      ∃ t, exec (.modinv rd rs1 rm msel) s = .next t ∧ Failed s t .notInvertible)

/-- R123: working in the Montgomery domain, for odd `m > 1`. -/
def Obligations.MontgomeryDomain : Prop :=
  ∀ m x y : Nat, 1 < m → m % 2 = 1 →
    montProduct (x * radix % m) (y * radix % m) m = x * y * radix % m
    ∧ montProduct x (radix ^ 2 % m) m = x * radix % m
    ∧ montProduct x 1 m = x * invMod radix m % m

/-- R131: for a prime `m` and `g` not divisible by `m`, the exponentiation by `m - 2` is the inverse; for
`g` divisible by an odd prime `m` it is 0. -/
def Obligations.FermatInverse : Prop :=
  ∀ m g : Nat, Nat.Prime m → m < 2 ^ 256 →
    (g % m ≠ 0 → powMod g (m - 2) m = invMod g m)
    ∧ (g % m = 0 → m ≠ 2 → powMod g (m - 2) m = 0)

/-- R135: "For all `a` coprime to `p`: `(a * modinv(a, p)) mod p == 1`", for MODINV modulo `CURVE.p`. -/
def Obligations.ModinvByCurvePrime : Prop :=
  ∀ s rd rs1, curveWellFormed s.curve → Nat.Coprime (s.natF rs1) s.curve.p.toNat →
    ∃ t, exec (.modinv rd rs1 0 .curveP) s = .next t ∧ t.status.errcode = none
      ∧ s.natF rs1 * t.natF rd % s.curve.p.toNat = 1

/-! ### Point commands (R150 to R154, R170 to R174) -/

/-- R151: PDBL.  The identity and a vertical tangent give the canonical identity; any other affine point in
range, on the curve or not, gives the point of the tangent formula, whose slope `l` is the one value in
`[0, p)` with `l * 2y = 3x^2 + a (mod p)`. -/
def Obligations.PdblResult : Prop :=
  ∀ s pd ps1, curveWellFormed s.curve →
    s.inRange (s.readP ps1) = true →
    ∃ t, exec (.pdbl pd ps1) s = .next t ∧ CompletedPoint s t pd
      ∧ (s.readP ps1 = .identity → t.readPReg pd = { inf := true, x := 0, y := 0 })
      ∧ (∀ x, s.readP ps1 = .affine x 0 → t.readPReg pd = { inf := true, x := 0, y := 0 })
      ∧ (∀ x y, s.readP ps1 = .affine x y → y ≠ 0 →
          ∃ l x3 y3 : Nat, t.readP pd = .affine x3 y3
            ∧ l < s.curve.p.toNat ∧ x3 < s.curve.p.toNat ∧ y3 < s.curve.p.toNat
            ∧ l * (2 * y) % s.curve.p.toNat
                = (3 * x * x + s.curve.a.toNat) % s.curve.p.toNat
            ∧ (x3 : Int) = ((l : Int) * l - 2 * x) % s.curve.p.toNat
            ∧ (y3 : Int) = ((l : Int) * (x - x3) - y) % s.curve.p.toNat)

/-- R152: PADD.  The identity is neutral on both sides, with a canonical result; equal points give what PDBL
gives; inverse points give the identity; any other pair in range gives the point of the chord formula,
whose slope `l` is the one value in `[0, p)` with `l * (x1 - x2) = y1 - y2 (mod p)`. -/
def Obligations.PaddResult : Prop :=
  ∀ s pd ps1 ps2, curveWellFormed s.curve →
    s.inRange (s.readP ps1) = true → s.inRange (s.readP ps2) = true →
    ∃ t, exec (.padd pd ps1 ps2) s = .next t ∧ CompletedPoint s t pd
      ∧ (s.readP ps1 = .identity → t.readP pd = s.readP ps2)
      ∧ (s.readP ps2 = .identity → t.readP pd = s.readP ps1)
      ∧ (t.readP pd = .identity → t.readPReg pd = { inf := true, x := 0, y := 0 })
      ∧ (∀ d, s.readP ps1 = s.readP ps2 → exec (.pdbl pd ps1) s = .next d →
          t.readPReg pd = d.readPReg pd)
      ∧ (∀ x y1 y2, s.readP ps1 = .affine x y1 → s.readP ps2 = .affine x y2 → y1 ≠ y2 →
          t.readP pd = .identity)
      ∧ (∀ x1 y1 x2 y2, s.readP ps1 = .affine x1 y1 → s.readP ps2 = .affine x2 y2 → x1 ≠ x2 →
          ∃ l x3 y3 : Nat, t.readP pd = .affine x3 y3
            ∧ l < s.curve.p.toNat ∧ x3 < s.curve.p.toNat ∧ y3 < s.curve.p.toNat
            ∧ ((l : Int) * (x1 - x2)) % s.curve.p.toNat
                = ((y1 : Int) - y2) % s.curve.p.toNat
            ∧ (x3 : Int) = ((l : Int) * l - x1 - x2) % s.curve.p.toNat
            ∧ (y3 : Int) = ((l : Int) * (x1 - x3) - y1) % s.curve.p.toNat)

/-- R171, R98, R170: SMUL whose scalar passes the check (if `chk` asks for it) and whose point is in range
completes and writes the double-and-add product, in canonical form; `gsel` takes the base point, which
is always in range. -/
def Obligations.SmulResult : Prop :=
  ∀ s pd ps1 rk gsel chk, curveWellFormed s.curve →
    (chk = true → 1 ≤ s.natF rk ∧ s.natF rk < s.curve.n.toNat) →
    (gsel = true ∨ s.inRange (s.readP ps1) = true) →
    ∃ t, exec (.smul pd ps1 rk gsel chk) s = .next t ∧ CompletedPoint s t pd
      ∧ (t.readP pd = .identity → t.readPReg pd = { inf := true, x := 0, y := 0 })
      ∧ t.readP pd = (if gsel then s.mul (s.natF rk) (basePoint s.curve)
          else s.mul (s.natF rk) (s.readP ps1))

/-- R171, R174: the product of the loop is what running over the bits of `k`, from the least significant to
the most significant one and no further, accumulates. -/
def Obligations.SmulRunsOverTheBits : Prop :=
  ∀ p a k q, k < 2 ^ 256 →
    Point.mul p a k q =
      ((List.range k.size).foldl
        (fun (st : Point × Point) i =>
          (if k.testBit i then Point.add p a st.1 st.2 else st.1, Point.dbl p a st.2))
        (.identity, q)).1

/-- R172, R204, R205, R211: SMUL with `chk = 1` and a scalar outside `[1, n)` fails with INVALID_SCALAR,
whatever its point; with a scalar that passes, a point register out of range fails with
OPERAND_RANGE. -/
def Obligations.SmulErrors : Prop :=
  ∀ s pd ps1 rk gsel chk,
    (chk = true → (s.natF rk = 0 ∨ s.curve.n.toNat ≤ s.natF rk) →
      ∃ t, exec (.smul pd ps1 rk gsel chk) s = .next t ∧ Failed s t .invalidScalar)
    ∧ ((chk = true → 1 ≤ s.natF rk ∧ s.natF rk < s.curve.n.toNat) → gsel = false →
      s.inRange (s.readP ps1) = false →
      ∃ t, exec (.smul pd ps1 rk gsel chk) s = .next t ∧ Failed s t .operandRange)

/-- R150, R205: PDBL and PADD fail with OPERAND_RANGE when a source is affine with a coordinate that is not
below `p`, whichever source it is; an identity source is never out of range, whatever its coordinates
hold. -/
def Obligations.PointRangeErrors : Prop :=
  ∀ s pd ps1 ps2,
    ((s.readPReg ps1).inf = false →
      (s.curve.p ≤ (s.readPReg ps1).x ∨ s.curve.p ≤ (s.readPReg ps1).y) →
      (∃ t, exec (.pdbl pd ps1) s = .next t ∧ Failed s t .operandRange)
      ∧ (∃ t, exec (.padd pd ps1 ps2) s = .next t ∧ Failed s t .operandRange)
      ∧ (∃ t, exec (.padd pd ps2 ps1) s = .next t ∧ Failed s t .operandRange))
    ∧ ((s.readPReg ps1).inf = true →
      ∃ t, exec (.pdbl pd ps1) s = .next t ∧ t.status.errcode = none)

/-- R150, R24: a point command that succeeds leaves its destination in canonical form: the identity
`(1, 0, 0)`, or `inf = 0` with both coordinates below `p`. -/
def Obligations.PointResultsAreCanonical : Prop :=
  ∀ i s t pd, curveWellFormed s.curve → destPoint i = some pd → exec i s = .next t →
    t.status.errcode = none →
    t.readPReg pd = { inf := true, x := 0, y := 0 }
      ∨ ((t.readPReg pd).inf = false ∧ (t.readPReg pd).x < s.curve.p
          ∧ (t.readPReg pd).y < s.curve.p)

/-- R154 (which the spec marks as general knowledge, not in its source): on a well-formed curve, `add` and
`dbl` are a group law on the points of the curve with `Identity` as neutral element, and their results
lie on the curve. -/
def Obligations.CurvePointsFormAGroup : Prop :=
  ∀ c : Curve, curveWellFormed c →
    (∀ q r, Point.onCurve c q = true → Point.onCurve c r = true →
      Point.onCurve c (Point.add c.p.toNat c.a.toNat q r) = true
      ∧ Point.onCurve c (Point.dbl c.p.toNat c.a.toNat q) = true
      ∧ Point.add c.p.toNat c.a.toNat q r = Point.add c.p.toNat c.a.toNat r q
      ∧ Point.dbl c.p.toNat c.a.toNat q = Point.add c.p.toNat c.a.toNat q q
      ∧ Point.add c.p.toNat c.a.toNat .identity q = q
      ∧ Point.onCurve c (Point.neg c.p.toNat q) = true
      ∧ Point.add c.p.toNat c.a.toNat q (Point.neg c.p.toNat q) = .identity)
    ∧ (∀ q r u, Point.onCurve c q = true → Point.onCurve c r = true →
      Point.onCurve c u = true →
      Point.add c.p.toNat c.a.toNat (Point.add c.p.toNat c.a.toNat q r) u
        = Point.add c.p.toNat c.a.toNat q (Point.add c.p.toNat c.a.toNat r u))

/-- The contract of R171: for a point of a well-formed curve, the double-and-add product is the point
obtained by adding it to itself `k` times. -/
def Obligations.SmulIsRepeatedAddition : Prop :=
  ∀ c k q, curveWellFormed c → k < 2 ^ 256 → Point.onCurve c q = true →
    Point.mul c.p.toNat c.a.toNat k q = Point.timesAdd c.p.toNat c.a.toNat q k

/-- R173: the four properties of SMUL for the base point of a well-formed curve: the scalar 0, the scalar
1, a sum of scalars (past the order too), and a scalar against its remainder modulo the order. -/
def Obligations.SmulOfBasePoint : Prop :=
  ∀ s pd r1 r2 r3, curveWellFormed s.curve →
    ∃ t1 t2 t3,
      exec (.smul pd 0 r1 true false) s = .next t1
      ∧ exec (.smul pd 0 r2 true false) s = .next t2
      ∧ exec (.smul pd 0 r3 true false) s = .next t3
      ∧ (s.natF r1 = 0 → t1.readP pd = .identity)
      ∧ (s.natF r1 = 1 → t1.readP pd = basePoint s.curve)
      ∧ (s.natF r3 = s.natF r1 + s.natF r2 →
          t3.readP pd = s.add (t1.readP pd) (t2.readP pd))
      ∧ (s.natF r2 = s.natF r1 % s.curve.n.toNat → t1.readP pd = t2.readP pd)

/-! ### What every command leaves alone, and its errors (R21, R25, R200, R213) -/

/-- R21, R25, R39: the frame of every command: of the field and point registers only its destination may
change, of STATUS only what completion writes, and nothing else of the block or the host. -/
def Obligations.CommandWritesOnlyItsDestination : Prop :=
  ∀ i s t, exec i s = .next t →
    (∀ j, destField i ≠ some j → t.readF j = s.readF j)
    ∧ (∀ j, destPoint i ≠ some j → t.readPReg j = s.readPReg j)
    ∧ t.cmdlat = s.cmdlat ∧ t.ie = s.ie ∧ t.curve = s.curve ∧ t.basePage = s.basePage
    ∧ t.admitted = s.admitted ∧ t.resetAsserted = s.resetAsserted
    ∧ t.pending = s.pending ∧ t.rdata = s.rdata
    ∧ t.status.ovr = s.status.ovr ∧ t.status.wbusy = s.status.wbusy
    ∧ t.status.busy = false ∧ t.status.done = true

/-- The same frame through the window: every location but STATUS, the words of the destination and, for a
point destination, PINF reads as before; and of PINF only the destination's bit may differ. -/
def Obligations.WindowFrameOfCommands : Prop :=
  ∀ i s t, exec i s = .next t →
    (∀ r, mayChange i r = false → t.readReg r = s.readReg r)
    ∧ (∀ j : PReg, destPoint i ≠ some j →
        (t.readReg .pinf).getLsbD j.val = (s.readReg .pinf).getLsbD j.val)

/-- R213: a command that raises writes no data register, sets ERRCODE, ERR, DONE and clears BUSY, leaves
CMDLAT at the word that failed, and raises IRQ if ERR_IE or DONE_IE is set; nothing is saved. -/
def Obligations.ErrorIsPrecise : Prop :=
  ∀ s t code, s.status.busy = true → engineTurn s = .next t → t.status.errcode = some code →
    Failed s t code
      ∧ t.readReg .pinf = s.readReg .pinf ∧ t.readReg .cmd = s.cmdlat
      ∧ ((s.ie.errIE = true ∨ s.ie.doneIE = true) → t.irq = true)

/-- R200, R203, R206: the codes each command can report, and what ERRCODE then reads; no instruction reports
code 1, and no state reads a code above 5. -/
def Obligations.ErrorCodesByCommand : Prop :=
  (∀ i s t, exec i s = .next t →
    t.status.errcode = none
    ∨ (t.status.errcode = some .invalidModulus ∧ (destField i).isSome = true)
    ∨ (t.status.errcode = some .notInvertible
        ∧ ∃ rd rs1 rm msel, i = .modinv rd rs1 rm msel)
    ∨ (t.status.errcode = some .invalidScalar ∧ ∃ pd ps1 rk gsel, i = .smul pd ps1 rk gsel true)
    ∨ (t.status.errcode = some .operandRange ∧ (destPoint i).isSome = true))
  ∧ (∀ s : State, bits (s.readReg .status) 11 8 ≤ 5)

/-- R8, U3, R242: an instance is admitted when it is built exactly if its `CURVE` is well formed, and then as
the reset state of that `CURVE`; an instance that was not admitted is refused by name at every step,
whatever the step would be; and the instance of this model, with its open `CURVE`, is admitted.  The
flag `admitted` is the model's (log entry 1). -/
def Obligations.MalformedCurveIsRefused : Prop :=
  (∀ c b, (State.instantiate c b).admitted = true ↔ curveWellFormed c)
  ∧ (∀ c b, BlockIsReset (State.instantiate c b) (State.instantiate c b)
      ∧ (State.instantiate c b).curve = c ∧ (State.instantiate c b).basePage = b
      ∧ (State.instantiate c b).resetAsserted = false)
  ∧ (∀ s : State, s.admitted = false → step s = .refused .malformedCurve)
  ∧ State.reset = State.instantiate Config.curve Config.basePage
  ∧ curveWellFormed State.reset.curve ∧ State.reset.admitted = true

/-! ### The register window (R60 to R71, R250) -/

/-- R66: the map of the window: the registers stand at the offsets the rule lists, every location stands at
its own offset, a multiple of 4 inside the window, no two at one offset; an aligned offset holds a
location exactly when it is not reserved; an address outside the window is the platform's, which the
model refuses (log entry 7). -/
def Obligations.AddressMap : Prop :=
  (locate 0x000 = some .id ∧ locate 0x004 = some .ctrl ∧ locate 0x008 = some .status
      ∧ locate 0x00C = some .ie ∧ locate 0x010 = some .cmd ∧ locate 0x014 = some .pinf)
    ∧ (∀ (i : FReg) (j : Fin 8), locate (0x100 + 0x20 * i.val + 4 * j.val) = some (.f i j))
    ∧ (∀ (i : PReg) (j : Fin 8),
        locate (0x300 + 0x40 * i.val + 4 * j.val) = some (.px i j)
        ∧ locate (0x320 + 0x40 * i.val + 4 * j.val) = some (.py i j))
    ∧ (∀ j : Fin 8,
        locate (0x500 + 4 * j.val) = some (.curve .p j)
        ∧ locate (0x520 + 4 * j.val) = some (.curve .a j)
        ∧ locate (0x540 + 4 * j.val) = some (.curve .b j)
        ∧ locate (0x560 + 4 * j.val) = some (.curve .n j)
        ∧ locate (0x580 + 4 * j.val) = some (.curve .gx j)
        ∧ locate (0x5A0 + 4 * j.val) = some (.curve .gy j))
    ∧ (∀ r : WindowReg, r.offset < 0x1000 ∧ r.offset % 4 = 0 ∧ locate r.offset = some r)
    ∧ (∀ off r, off % 4 = 0 → locate off = some r → r.offset = off)
    ∧ (∀ off, off % 4 = 0 → off < 0x1000 →
        (locate off = none ↔ (0x018 ≤ off ∧ off < 0x100) ∨ 0x5C0 ≤ off))
    ∧ (∀ s : State, s.base % 4096 = 0)
    ∧ (∀ (s : State) addr size v, addr < s.base ∨ s.base + 0x1000 ≤ addr →
        s.hostRead addr size = .refused .outsideWindow
        ∧ s.hostWrite addr size v = .refused .outsideWindow)

/-- R68, R61: a read returns the value of its location and has no side effect; ID reads `0xECC00001`, CTRL
reads 0 and CMD reads CMDLAT in every state (R36, R35, R31); a write to any location but CMD, STATUS and
CTRL is idempotent.  The field `rdata` is the model's (log entry 5), and so is that a read is answered
in the same way while reset is asserted (log entry 9). -/
def Obligations.ReadsAreSilentWritesIdempotent : Prop :=
  (∀ s r rest, HostReads s (WindowReg.offset r) rest →
    step s = .next { s with pending := rest, rdata := some (s.readReg r) })
  ∧ (∀ s : State, s.readReg .id = 0xECC00001#32 ∧ s.readReg .ctrl = 0x00000000#32
    ∧ s.readReg .cmd = s.cmdlat)
  ∧ (∀ (s : State) r v, r ≠ .cmd → r ≠ .status → r ≠ .ctrl →
    (s.writeReg r v).writeReg r v = s.writeReg r v)

/-- R65: an access of the window that is not 4 bytes at a multiple of 4 is a bus error.  The faults' names are
the model's (log entry 6), the list of events too (log entry 3), and that it is one while reset is
asserted as well (log entry 9). -/
def Obligations.UnalignedOrOddSizedAccessFaults : Prop :=
  ∀ (s : State) off size v rest, s.admitted = true → off < 0x1000 → (size ≠ 4 ∨ off % 4 ≠ 0) →
    (s.pending = .read (s.base + off) size :: rest ∨
      s.pending = .write (s.base + off) size v :: rest) →
    step s = .fault (if size ≠ 4 then .busErrorSize else .busErrorAlignment)

/-- R67: an aligned 4-byte access to a reserved offset is a bus error.  The fault's name is the model's (log
entry 6), the list of events too (log entry 3), and that it is one while reset is asserted as well
(log entry 9). -/
def Obligations.ReservedOffsetFaults : Prop :=
  ∀ s off v rest, off % 4 = 0 →
    ((0x018 ≤ off ∧ off ≤ 0x0FF) ∨ (0x5C0 ≤ off ∧ off ≤ 0xFFF)) →
    (HostReads s off rest ∨
      (s.pending = .write (s.base + off) 4 v :: rest ∧ s.admitted = true)) →
    step s = .fault .busErrorReserved

/-- R62: word `j` of a 256-bit register is its bits `32*j + 31` down to `32*j`, for reading and, while the
block is idle, for writing, where the other bits, every other register and the rest of the events keep
their values.  The cleared bus response is the model's (log entry 5). -/
def Obligations.RegisterWordAccess : Prop :=
  (∀ (s : State) i j (k : Nat), k < 32 →
    (s.readReg (.f i j)).getLsbD k = (s.readF i).getLsbD (32 * j.val + k))
  ∧ (∀ (s : State) i j (k : Nat), k < 32 →
    (s.readReg (.px i j)).getLsbD k = (s.readPReg i).x.getLsbD (32 * j.val + k)
    ∧ (s.readReg (.py i j)).getLsbD k = (s.readPReg i).y.getLsbD (32 * j.val + k))
  ∧ (∀ (s : State) r j (k : Nat), k < 32 →
    (s.readReg (.curve r j)).getLsbD k = (curveReg s.curve r).getLsbD (32 * j.val + k))
  ∧ (∀ s i j v rest, s.status.busy = false →
    HostWrites s (WindowReg.offset (.f i j)) v rest →
    ∃ t, step s = .next t ∧ t = { s with f := t.f, pending := rest, rdata := none }
      ∧ (∀ i', i' ≠ i → t.readF i' = s.readF i')
      ∧ ∀ k : Nat, k < 256 → (t.readF i).getLsbD k =
          if 32 * j.val ≤ k ∧ k < 32 * j.val + 32 then v.getLsbD (k - 32 * j.val)
          else (s.readF i).getLsbD k)
  ∧ (∀ s i j v rest, s.status.busy = false →
    HostWrites s (WindowReg.offset (.px i j)) v rest →
    ∃ t, step s = .next t ∧ t = { s with p := t.p, pending := rest, rdata := none }
      ∧ (∀ i', i' ≠ i → t.readPReg i' = s.readPReg i')
      ∧ (t.readPReg i).inf = (s.readPReg i).inf ∧ (t.readPReg i).y = (s.readPReg i).y
      ∧ ∀ k : Nat, k < 256 → (t.readPReg i).x.getLsbD k =
          if 32 * j.val ≤ k ∧ k < 32 * j.val + 32 then v.getLsbD (k - 32 * j.val)
          else (s.readPReg i).x.getLsbD k)
  ∧ (∀ s i j v rest, s.status.busy = false →
    HostWrites s (WindowReg.offset (.py i j)) v rest →
    ∃ t, step s = .next t ∧ t = { s with p := t.p, pending := rest, rdata := none }
      ∧ (∀ i', i' ≠ i → t.readPReg i' = s.readPReg i')
      ∧ (t.readPReg i).inf = (s.readPReg i).inf ∧ (t.readPReg i).x = (s.readPReg i).x
      ∧ ∀ k : Nat, k < 256 → (t.readPReg i).y.getLsbD k =
          if 32 * j.val ≤ k ∧ k < 32 * j.val + 32 then v.getLsbD (k - 32 * j.val)
          else (s.readPReg i).y.getLsbD k)

/-- R64, R63: byte `i` of the 32-byte big-endian form of a register is byte `3 - (i mod 4)` of its word
`7 - i div 4`. -/
def Obligations.SerializedBytesInTheWindow : Prop :=
  ∀ (v : U256) (i : Fin 32) (j : Fin 8) (k : Fin 4),
    j.val = 7 - i.val / 4 → k.val = 3 - i.val % 4 →
    serialByte v i = byteOfWord (wordOf v j) k

/-- R250: while a command is pending, a write to any word of a field register, a point register or PINF is
dropped and sets WBUSY; one to the curve registers or ID has no effect at all.  The cleared bus
response is the model's (log entry 5). -/
def Obligations.OperandWriteWhileBusyIsDropped : Prop :=
  ∀ s r v rest, s.status.busy = true → HostWrites s (WindowReg.offset r) v rest →
    ((r = .pinf ∨ (∃ i j, r = .f i j) ∨ (∃ i j, r = .px i j) ∨ (∃ i j, r = .py i j)) →
      step s = .next { s with
        status := { s.status with wbusy := true }
        pending := rest
        rdata := none })
    ∧ ((r = .id ∨ ∃ cr j, r = .curve cr j) →
      step s = .next { s with pending := rest, rdata := none })

/-- R28, R36: a write to a curve register or to ID has no effect, busy or not, and sets no STATUS bit.
The cleared bus response is the model's (log entry 5). -/
def Obligations.ReadOnlyWritesAreIgnored : Prop :=
  ∀ s r v rest, (r = .id ∨ ∃ cr j, r = .curve cr j) → HostWrites s (WindowReg.offset r) v rest →
    step s = .next { s with pending := rest, rdata := none }

/-- R37: PINF gathers the `inf` bits; a write while idle sets all eight and no coordinate and no other
register, its bits 31 to 8 are ignored, and they read 0; a write while busy is dropped and sets WBUSY.
The cleared bus response is the model's (log entry 5). -/
def Obligations.PinfReadAndWrite : Prop :=
  (∀ (s : State) (i : Nat), (s.readReg .pinf).getLsbD i =
      if h : i < 8 then (s.readPReg ⟨i, h⟩).inf else false)
    ∧ (∀ (s : State) v rest, s.status.busy = false → HostWrites s 0x014 v rest →
        ∃ t, step s = .next t ∧ t = { s with p := t.p, pending := rest, rdata := none }
          ∧ t.readReg .pinf = v &&& 0xFF#32
          ∧ ∀ i : PReg, t.readPReg i = { s.readPReg i with inf := v.getLsbD i.val })
    ∧ (∀ (s : State) v rest, s.status.busy = true → HostWrites s 0x014 v rest →
        step s = .next { s with
          status := { s.status with wbusy := true }
          pending := rest
          rdata := none })

/-! ### STATUS, IE and IRQ (R32 to R34, R38) -/

/-- R32, R200: what a read of STATUS shows, bit by bit, and the number of each error code. -/
def Obligations.StatusLayout : Prop :=
  ∀ s : State,
    (s.readReg .status).getLsbD 0 = s.status.busy
    ∧ (s.readReg .status).getLsbD 1 = s.status.done
    ∧ (s.readReg .status).getLsbD 2 = s.status.err
    ∧ (s.readReg .status).getLsbD 3 = s.status.ovr
    ∧ (s.readReg .status).getLsbD 4 = s.status.wbusy
    ∧ bits (s.readReg .status) 7 5 = 0
    ∧ (s.status.errcode = none → bits (s.readReg .status) 11 8 = 0)
    ∧ (s.status.errcode = some .illegalOp → bits (s.readReg .status) 11 8 = 1)
    ∧ (s.status.errcode = some .invalidModulus → bits (s.readReg .status) 11 8 = 2)
    ∧ (s.status.errcode = some .notInvertible → bits (s.readReg .status) 11 8 = 3)
    ∧ (s.status.errcode = some .invalidScalar → bits (s.readReg .status) 11 8 = 4)
    ∧ (s.status.errcode = some .operandRange → bits (s.readReg .status) 11 8 = 5)
    ∧ bits (s.readReg .status) 31 12 = 0

/-- R33: a STATUS write clears each of DONE, ERR, OVR and WBUSY whose bit is 1 in `v` and changes nothing
else, busy or not.  The cleared bus response is the model's (log entry 5). -/
def Obligations.StatusWriteClearsOnes : Prop :=
  ∀ (s : State) v rest, HostWrites s 0x008 v rest →
    step s = .next { s with
      status :=
        { busy := s.status.busy
          done := s.status.done && !v.getLsbD 1
          err := s.status.err && !v.getLsbD 2
          ovr := s.status.ovr && !v.getLsbD 3
          wbusy := s.status.wbusy && !v.getLsbD 4
          errcode := s.status.errcode }
      pending := rest
      rdata := none }

/-- R34: an IE write takes the three enable bits, busy or not, and reads back with the reserved bits 0.  The
cleared bus response is the model's (log entry 5). -/
def Obligations.InterruptEnableWrite : Prop :=
  ∀ (s : State) v rest, HostWrites s 0x00C v rest →
    ∃ t, step s = .next t
      ∧ t = { s with
          ie := { doneIE := v.getLsbD 0, errIE := v.getLsbD 1, protIE := v.getLsbD 2 }
          pending := rest
          rdata := none }
      ∧ t.readReg .ie = v &&& 0x7#32

/-- R38: IRQ is the OR of the enabled pending bits, and 0 after reset. -/
def Obligations.InterruptOutput : Prop :=
  (∀ s : State, s.irq =
    (((s.readReg .status).getLsbD 1 && (s.readReg .ie).getLsbD 0)
      || ((s.readReg .status).getLsbD 2 && (s.readReg .ie).getLsbD 1)
      || (((s.readReg .status).getLsbD 3 || (s.readReg .status).getLsbD 4)
        && (s.readReg .ie).getLsbD 2)))
    ∧ State.reset.irq = false
end

