-- ==== Sys2Proof/Laws/Arith.lean ====
section
/-! SUPPORT. The laws of Euclidean reduction (R10), of the inverse (R11), of one turn of each loop (R130,
R134, R171) and of the point functions (R151, R152, R171). -/

namespace Sys2Proof.Machine

/-- The reduced value, as an integer (R10). -/
theorem modNat_cast (x : Int) {m : Nat} (hm : 0 < m) : ((modNat x m : Nat) : Int) = x % (m : Int) :=
  Int.toNat_of_nonneg (Int.emod_nonneg x (by omega))

/-- R10: the result lies in `[0, m)`. -/
theorem modNat_lt (x : Int) {m : Nat} (hm : 0 < m) : modNat x m < m := by
  have h := modNat_cast x hm
  have h2 := Int.emod_lt_of_pos x (show (0 : Int) < m by omega)
  omega

/-- On a number that is not negative, R10's reduction is the remainder. -/
@[simp] theorem modNat_natCast (x m : Nat) : modNat (x : Int) m = x % m := by
  simp only [modNat]
  omega

/-- Every inverse lies in `[0, m)` (R11). -/
theorem invMod_lt (v : Int) {m : Nat} (hm : 0 < m) : invMod v m < m := modNat_lt _ hm

theorem euclidCofactor_zero (fuel r0 : Nat) (t0 t1 : Int) :
    euclidCofactor fuel r0 0 t0 t1 = t0 := by
  cases fuel <;> rfl

theorem euclidCofactor_succ (fuel r0 : Nat) {r1 : Nat} (h : r1 ≠ 0) (t0 t1 : Int) :
    euclidCofactor (fuel + 1) r0 r1 t0 t1
      = euclidCofactor fuel r1 (r0 % r1) t1 (t0 - ((r0 / r1 : Nat) : Int) * t1) := by
  simp [euclidCofactor, h]

theorem powLoop_zero (g e m r : Nat) : powLoop g e m 0 r = r := rfl

theorem powLoop_succ (g e m i r : Nat) :
    powLoop g e m (i + 1) r
      = powLoop g e m i (if e.testBit i then r * r % m * g % m else r * r % m) := rfl

theorem mulLoop_zero_scalar (p a fuel : Nat) (acc addend : Point) :
    mulLoop p a fuel 0 acc addend = acc := by
  cases fuel <;> rfl

theorem mulLoop_succ (p a fuel : Nat) {k : Nat} (h : k ≠ 0) (acc addend : Point) :
    mulLoop p a (fuel + 1) k acc addend
      = mulLoop p a fuel (k / 2) (if k % 2 = 1 then Point.add p a acc addend else acc)
          (Point.dbl p a addend) := by
  simp [mulLoop, h]

@[simp] theorem add_identity_left (p a : Nat) (q : Point) : Point.add p a .identity q = q := by
  cases q <;> rfl

@[simp] theorem add_identity_right (p a : Nat) (q : Point) : Point.add p a q .identity = q := by
  cases q <;> rfl

@[simp] theorem dbl_identity (p a : Nat) : Point.dbl p a .identity = .identity := rfl

theorem mul_eq_mulLoop (p a k : Nat) (q : Point) :
    Point.mul p a k q = mulLoop p a 256 k .identity q := by
  rw [Point.mul]

/-! ### The inverse -/

/-- R10: the reduced value is congruent to the number. -/
theorem modNat_modEq (x : Int) {m : Nat} (hm : 0 < m) : (modNat x m : Int) ≡ x [ZMOD m] := by
  rw [modNat_cast x hm]
  exact Int.mod_modEq x m

/-- The Euclidean loop keeps `t0 * v = r0` and `t1 * v = r1` modulo `m`, so it ends at a cofactor of the
greatest common divisor. -/
theorem euclidCofactor_modEq (m : Nat) (v : Int) : ∀ (fuel r0 r1 : Nat) (t0 t1 : Int), r1 < fuel →
    t0 * v ≡ r0 [ZMOD m] → t1 * v ≡ r1 [ZMOD m] →
    euclidCofactor fuel r0 r1 t0 t1 * v ≡ (Nat.gcd r0 r1 : Nat) [ZMOD m] := by
  intro fuel
  induction fuel with
  | zero => intros; omega
  | succ f ih =>
    intro r0 r1 t0 t1 hf h0 h1
    by_cases hr : r1 = 0
    · subst hr
      simpa [euclidCofactor_zero] using h0
    · rw [euclidCofactor_succ _ _ hr,
        show Nat.gcd r0 r1 = Nat.gcd r1 (r0 % r1) by rw [Nat.gcd_comm r1, ← Nat.gcd_rec, Nat.gcd_comm]]
      apply ih _ _ _ _ (by have := Nat.mod_lt r0 (Nat.pos_of_ne_zero hr); omega) h1
      have e : ((r0 % r1 : Nat) : Int) = r0 - (r0 / r1 : Nat) * r1 := by
        push_cast
        linarith [Int.emod_add_mul_ediv (r0 : Int) r1, mul_comm (r1 : Int) (r0 / r1 : Int)]
      rw [e, sub_mul, mul_assoc]
      exact h0.sub (h1.mul_left _)

/-- R11: `inv_m(v)` is an inverse of `v` modulo `m` when the two are coprime. -/
theorem invMod_mul_modEq (v : Int) {m : Nat} (hm : 0 < m) (hg : Int.gcd v m = 1) :
    (invMod v m : Int) * v ≡ 1 [ZMOD m] := by
  have h := euclidCofactor_modEq m v (m + 1) m (modNat v m) 0 1
    (by have := modNat_lt v hm; omega) (by simp [Int.ModEq])
    (by rw [one_mul]; exact (modNat_modEq v hm).symm)
  have hgcd : Nat.gcd m (modNat v m) = 1 := by
    have h1 : ((Nat.gcd m (modNat v m) : Nat) : Int) ∣ m := by exact_mod_cast Nat.gcd_dvd_left _ _
    have h2 : ((Nat.gcd m (modNat v m) : Nat) : Int) ∣ (modNat v m : Nat) := by
      exact_mod_cast Nat.gcd_dvd_right _ _
    have h3 : ((Nat.gcd m (modNat v m) : Nat) : Int) ∣ v := by
      simpa using dvd_add (h1.trans (modNat_modEq v hm).dvd) h2
    have h4 := Int.dvd_coe_gcd h3 h1
    rw [hg] at h4
    exact Nat.dvd_one.1 (by exact_mod_cast h4)
  rw [hgcd] at h
  exact ((modNat_modEq _ hm).mul_right v).trans (by exact_mod_cast h)

/-! ### Results in range (R24, R150) -/

/-- R151: the double of a point is in range, whatever the point. -/
theorem dbl_inRange (a : Nat) {p : Nat} (hp : 0 < p) (q : Point) :
    Point.inRange p (Point.dbl p a q) = true := by
  cases q with
  | identity => rfl
  | affine x y => by_cases h : y = 0 <;> simp [Point.dbl, h, Point.inRange, modNat_lt _ hp]

/-- R152: the sum of points in range is in range. -/
theorem add_inRange (a : Nat) {p : Nat} (hp : 0 < p) {q r : Point} (hq : Point.inRange p q = true)
    (hr : Point.inRange p r = true) : Point.inRange p (Point.add p a q r) = true := by
  cases q with
  | identity => simpa using hr
  | affine x1 y1 =>
    cases r with
    | identity => simpa using hq
    | affine x2 y2 =>
      simp only [Point.add]
      split
      · exact dbl_inRange a hp _
      split
      · rfl
      · simp [Point.inRange, modNat_lt _ hp]

theorem mulLoop_inRange (a : Nat) {p : Nat} (hp : 0 < p) : ∀ fuel k acc addend,
    Point.inRange p acc = true → Point.inRange p addend = true →
    Point.inRange p (mulLoop p a fuel k acc addend) = true := by
  intro fuel
  induction fuel with
  | zero => intros; assumption
  | succ fuel ih =>
    intro k acc addend hq hr
    by_cases hk : k = 0
    · rw [hk, mulLoop_zero_scalar]
      exact hq
    · rw [mulLoop_succ _ _ _ hk]
      refine ih _ _ _ ?_ (dbl_inRange a hp _)
      split
      · exact add_inRange a hp hq hr
      · exact hq

/-- R171: a multiple of a point in range is in range. -/
theorem mul_inRange (a k : Nat) {p : Nat} (hp : 0 < p) {q : Point} (hq : Point.inRange p q = true) :
    Point.inRange p (Point.mul p a k q) = true := by
  rw [mul_eq_mulLoop]
  exact mulLoop_inRange a hp 256 k .identity q rfl hq

end Sys2Proof.Machine
end

