-- ==== Sys2Proof/Laws/State.lean ====
section
/-! SUPPORT. One lemma per field of State and per update, and the laws of the register accessors. -/

namespace Sys2Proof.Machine

/-! ### Updates of one field -/

@[simp] theorem setP_f (s : State) (x : Vector PointReg 8) : (s.setP x).f = s.f := rfl
@[simp] theorem setP_p (s : State) (x : Vector PointReg 8) : (s.setP x).p = x := rfl
@[simp] theorem setP_cmdlat (s : State) (x : Vector PointReg 8) : (s.setP x).cmdlat = s.cmdlat := rfl
@[simp] theorem setP_status (s : State) (x : Vector PointReg 8) : (s.setP x).status = s.status := rfl
@[simp] theorem setP_ie (s : State) (x : Vector PointReg 8) : (s.setP x).ie = s.ie := rfl
@[simp] theorem setP_curve (s : State) (x : Vector PointReg 8) : (s.setP x).curve = s.curve := rfl
@[simp] theorem setP_basePage (s : State) (x : Vector PointReg 8) : (s.setP x).basePage = s.basePage := rfl
@[simp] theorem setP_admitted (s : State) (x : Vector PointReg 8) : (s.setP x).admitted = s.admitted := rfl
@[simp] theorem setP_resetAsserted (s : State) (x : Vector PointReg 8) : (s.setP x).resetAsserted = s.resetAsserted := rfl
@[simp] theorem setP_work (s : State) (x : Vector PointReg 8) : (s.setP x).work = s.work := rfl
@[simp] theorem setP_pending (s : State) (x : Vector PointReg 8) : (s.setP x).pending = s.pending := rfl
@[simp] theorem setP_rdata (s : State) (x : Vector PointReg 8) : (s.setP x).rdata = s.rdata := rfl

@[simp] theorem setCmdlat_f (s : State) (x : Word) : (s.setCmdlat x).f = s.f := rfl
@[simp] theorem setCmdlat_p (s : State) (x : Word) : (s.setCmdlat x).p = s.p := rfl
@[simp] theorem setCmdlat_cmdlat (s : State) (x : Word) : (s.setCmdlat x).cmdlat = x := rfl
@[simp] theorem setCmdlat_status (s : State) (x : Word) : (s.setCmdlat x).status = s.status := rfl
@[simp] theorem setCmdlat_ie (s : State) (x : Word) : (s.setCmdlat x).ie = s.ie := rfl
@[simp] theorem setCmdlat_curve (s : State) (x : Word) : (s.setCmdlat x).curve = s.curve := rfl
@[simp] theorem setCmdlat_basePage (s : State) (x : Word) : (s.setCmdlat x).basePage = s.basePage := rfl
@[simp] theorem setCmdlat_admitted (s : State) (x : Word) : (s.setCmdlat x).admitted = s.admitted := rfl
@[simp] theorem setCmdlat_resetAsserted (s : State) (x : Word) : (s.setCmdlat x).resetAsserted = s.resetAsserted := rfl
@[simp] theorem setCmdlat_work (s : State) (x : Word) : (s.setCmdlat x).work = s.work := rfl
@[simp] theorem setCmdlat_pending (s : State) (x : Word) : (s.setCmdlat x).pending = s.pending := rfl
@[simp] theorem setCmdlat_rdata (s : State) (x : Word) : (s.setCmdlat x).rdata = s.rdata := rfl

@[simp] theorem setStatus_f (s : State) (x : Status) : (s.setStatus x).f = s.f := rfl
@[simp] theorem setStatus_p (s : State) (x : Status) : (s.setStatus x).p = s.p := rfl
@[simp] theorem setStatus_cmdlat (s : State) (x : Status) : (s.setStatus x).cmdlat = s.cmdlat := rfl
@[simp] theorem setStatus_status (s : State) (x : Status) : (s.setStatus x).status = x := rfl
@[simp] theorem setStatus_ie (s : State) (x : Status) : (s.setStatus x).ie = s.ie := rfl
@[simp] theorem setStatus_curve (s : State) (x : Status) : (s.setStatus x).curve = s.curve := rfl
@[simp] theorem setStatus_basePage (s : State) (x : Status) : (s.setStatus x).basePage = s.basePage := rfl
@[simp] theorem setStatus_admitted (s : State) (x : Status) : (s.setStatus x).admitted = s.admitted := rfl
@[simp] theorem setStatus_resetAsserted (s : State) (x : Status) : (s.setStatus x).resetAsserted = s.resetAsserted := rfl
@[simp] theorem setStatus_work (s : State) (x : Status) : (s.setStatus x).work = s.work := rfl
@[simp] theorem setStatus_pending (s : State) (x : Status) : (s.setStatus x).pending = s.pending := rfl
@[simp] theorem setStatus_rdata (s : State) (x : Status) : (s.setStatus x).rdata = s.rdata := rfl

@[simp] theorem setIE_f (s : State) (x : IntEnable) : (s.setIE x).f = s.f := rfl
@[simp] theorem setIE_p (s : State) (x : IntEnable) : (s.setIE x).p = s.p := rfl
@[simp] theorem setIE_cmdlat (s : State) (x : IntEnable) : (s.setIE x).cmdlat = s.cmdlat := rfl
@[simp] theorem setIE_status (s : State) (x : IntEnable) : (s.setIE x).status = s.status := rfl
@[simp] theorem setIE_ie (s : State) (x : IntEnable) : (s.setIE x).ie = x := rfl
@[simp] theorem setIE_curve (s : State) (x : IntEnable) : (s.setIE x).curve = s.curve := rfl
@[simp] theorem setIE_basePage (s : State) (x : IntEnable) : (s.setIE x).basePage = s.basePage := rfl
@[simp] theorem setIE_admitted (s : State) (x : IntEnable) : (s.setIE x).admitted = s.admitted := rfl
@[simp] theorem setIE_resetAsserted (s : State) (x : IntEnable) : (s.setIE x).resetAsserted = s.resetAsserted := rfl
@[simp] theorem setIE_work (s : State) (x : IntEnable) : (s.setIE x).work = s.work := rfl
@[simp] theorem setIE_pending (s : State) (x : IntEnable) : (s.setIE x).pending = s.pending := rfl
@[simp] theorem setIE_rdata (s : State) (x : IntEnable) : (s.setIE x).rdata = s.rdata := rfl

@[simp] theorem setWork_f (s : State) (x : Nat) : (s.setWork x).f = s.f := rfl
@[simp] theorem setWork_p (s : State) (x : Nat) : (s.setWork x).p = s.p := rfl
@[simp] theorem setWork_cmdlat (s : State) (x : Nat) : (s.setWork x).cmdlat = s.cmdlat := rfl
@[simp] theorem setWork_status (s : State) (x : Nat) : (s.setWork x).status = s.status := rfl
@[simp] theorem setWork_ie (s : State) (x : Nat) : (s.setWork x).ie = s.ie := rfl
@[simp] theorem setWork_curve (s : State) (x : Nat) : (s.setWork x).curve = s.curve := rfl
@[simp] theorem setWork_basePage (s : State) (x : Nat) : (s.setWork x).basePage = s.basePage := rfl
@[simp] theorem setWork_admitted (s : State) (x : Nat) : (s.setWork x).admitted = s.admitted := rfl
@[simp] theorem setWork_resetAsserted (s : State) (x : Nat) : (s.setWork x).resetAsserted = s.resetAsserted := rfl
@[simp] theorem setWork_work (s : State) (x : Nat) : (s.setWork x).work = x := rfl
@[simp] theorem setWork_pending (s : State) (x : Nat) : (s.setWork x).pending = s.pending := rfl
@[simp] theorem setWork_rdata (s : State) (x : Nat) : (s.setWork x).rdata = s.rdata := rfl

@[simp] theorem setPending_f (s : State) (x : List Event) : (s.setPending x).f = s.f := rfl
@[simp] theorem setPending_p (s : State) (x : List Event) : (s.setPending x).p = s.p := rfl
@[simp] theorem setPending_cmdlat (s : State) (x : List Event) : (s.setPending x).cmdlat = s.cmdlat := rfl
@[simp] theorem setPending_status (s : State) (x : List Event) : (s.setPending x).status = s.status := rfl
@[simp] theorem setPending_ie (s : State) (x : List Event) : (s.setPending x).ie = s.ie := rfl
@[simp] theorem setPending_curve (s : State) (x : List Event) : (s.setPending x).curve = s.curve := rfl
@[simp] theorem setPending_basePage (s : State) (x : List Event) : (s.setPending x).basePage = s.basePage := rfl
@[simp] theorem setPending_admitted (s : State) (x : List Event) : (s.setPending x).admitted = s.admitted := rfl
@[simp] theorem setPending_resetAsserted (s : State) (x : List Event) : (s.setPending x).resetAsserted = s.resetAsserted := rfl
@[simp] theorem setPending_work (s : State) (x : List Event) : (s.setPending x).work = s.work := rfl
@[simp] theorem setPending_pending (s : State) (x : List Event) : (s.setPending x).pending = x := rfl
@[simp] theorem setPending_rdata (s : State) (x : List Event) : (s.setPending x).rdata = s.rdata := rfl

@[simp] theorem setRdata_f (s : State) (x : Option Word) : (s.setRdata x).f = s.f := rfl
@[simp] theorem setRdata_p (s : State) (x : Option Word) : (s.setRdata x).p = s.p := rfl
@[simp] theorem setRdata_cmdlat (s : State) (x : Option Word) : (s.setRdata x).cmdlat = s.cmdlat := rfl
@[simp] theorem setRdata_status (s : State) (x : Option Word) : (s.setRdata x).status = s.status := rfl
@[simp] theorem setRdata_ie (s : State) (x : Option Word) : (s.setRdata x).ie = s.ie := rfl
@[simp] theorem setRdata_curve (s : State) (x : Option Word) : (s.setRdata x).curve = s.curve := rfl
@[simp] theorem setRdata_basePage (s : State) (x : Option Word) : (s.setRdata x).basePage = s.basePage := rfl
@[simp] theorem setRdata_admitted (s : State) (x : Option Word) : (s.setRdata x).admitted = s.admitted := rfl
@[simp] theorem setRdata_resetAsserted (s : State) (x : Option Word) : (s.setRdata x).resetAsserted = s.resetAsserted := rfl
@[simp] theorem setRdata_work (s : State) (x : Option Word) : (s.setRdata x).work = s.work := rfl
@[simp] theorem setRdata_pending (s : State) (x : Option Word) : (s.setRdata x).pending = s.pending := rfl
@[simp] theorem setRdata_rdata (s : State) (x : Option Word) : (s.setRdata x).rdata = x := rfl

@[simp] theorem setResetAsserted_f (s : State) (x : Bool) : (s.setResetAsserted x).f = s.f := rfl
@[simp] theorem setResetAsserted_p (s : State) (x : Bool) : (s.setResetAsserted x).p = s.p := rfl
@[simp] theorem setResetAsserted_cmdlat (s : State) (x : Bool) : (s.setResetAsserted x).cmdlat = s.cmdlat := rfl
@[simp] theorem setResetAsserted_status (s : State) (x : Bool) : (s.setResetAsserted x).status = s.status := rfl
@[simp] theorem setResetAsserted_ie (s : State) (x : Bool) : (s.setResetAsserted x).ie = s.ie := rfl
@[simp] theorem setResetAsserted_curve (s : State) (x : Bool) : (s.setResetAsserted x).curve = s.curve := rfl
@[simp] theorem setResetAsserted_basePage (s : State) (x : Bool) : (s.setResetAsserted x).basePage = s.basePage := rfl
@[simp] theorem setResetAsserted_admitted (s : State) (x : Bool) : (s.setResetAsserted x).admitted = s.admitted := rfl
@[simp] theorem setResetAsserted_resetAsserted (s : State) (x : Bool) : (s.setResetAsserted x).resetAsserted = x := rfl
@[simp] theorem setResetAsserted_work (s : State) (x : Bool) : (s.setResetAsserted x).work = s.work := rfl
@[simp] theorem setResetAsserted_pending (s : State) (x : Bool) : (s.setResetAsserted x).pending = s.pending := rfl
@[simp] theorem setResetAsserted_rdata (s : State) (x : Bool) : (s.setResetAsserted x).rdata = s.rdata := rfl

@[simp] theorem setF_p (s : State) (i : FReg) (x : U256) : (s.setF i x).p = s.p := rfl
@[simp] theorem setF_cmdlat (s : State) (i : FReg) (x : U256) : (s.setF i x).cmdlat = s.cmdlat := rfl
@[simp] theorem setF_status (s : State) (i : FReg) (x : U256) : (s.setF i x).status = s.status := rfl
@[simp] theorem setF_ie (s : State) (i : FReg) (x : U256) : (s.setF i x).ie = s.ie := rfl
@[simp] theorem setF_curve (s : State) (i : FReg) (x : U256) : (s.setF i x).curve = s.curve := rfl
@[simp] theorem setF_basePage (s : State) (i : FReg) (x : U256) : (s.setF i x).basePage = s.basePage := rfl
@[simp] theorem setF_admitted (s : State) (i : FReg) (x : U256) : (s.setF i x).admitted = s.admitted := rfl
@[simp] theorem setF_resetAsserted (s : State) (i : FReg) (x : U256) : (s.setF i x).resetAsserted = s.resetAsserted := rfl
@[simp] theorem setF_work (s : State) (i : FReg) (x : U256) : (s.setF i x).work = s.work := rfl
@[simp] theorem setF_pending (s : State) (i : FReg) (x : U256) : (s.setF i x).pending = s.pending := rfl
@[simp] theorem setF_rdata (s : State) (i : FReg) (x : U256) : (s.setF i x).rdata = s.rdata := rfl

@[simp] theorem setPReg_f (s : State) (i : PReg) (x : PointReg) : (s.setPReg i x).f = s.f := rfl
@[simp] theorem setPReg_cmdlat (s : State) (i : PReg) (x : PointReg) : (s.setPReg i x).cmdlat = s.cmdlat := rfl
@[simp] theorem setPReg_status (s : State) (i : PReg) (x : PointReg) : (s.setPReg i x).status = s.status := rfl
@[simp] theorem setPReg_ie (s : State) (i : PReg) (x : PointReg) : (s.setPReg i x).ie = s.ie := rfl
@[simp] theorem setPReg_curve (s : State) (i : PReg) (x : PointReg) : (s.setPReg i x).curve = s.curve := rfl
@[simp] theorem setPReg_basePage (s : State) (i : PReg) (x : PointReg) : (s.setPReg i x).basePage = s.basePage := rfl
@[simp] theorem setPReg_admitted (s : State) (i : PReg) (x : PointReg) : (s.setPReg i x).admitted = s.admitted := rfl
@[simp] theorem setPReg_resetAsserted (s : State) (i : PReg) (x : PointReg) : (s.setPReg i x).resetAsserted = s.resetAsserted := rfl
@[simp] theorem setPReg_work (s : State) (i : PReg) (x : PointReg) : (s.setPReg i x).work = s.work := rfl
@[simp] theorem setPReg_pending (s : State) (i : PReg) (x : PointReg) : (s.setPReg i x).pending = s.pending := rfl
@[simp] theorem setPReg_rdata (s : State) (i : PReg) (x : PointReg) : (s.setPReg i x).rdata = s.rdata := rfl

/-! ### Register accessors: read after write -/

@[simp] theorem readF_setF (s : State) (i j : FReg) (x : U256) :
    (s.setF i x).readF j = if j = i then x else s.readF j := by
  simp only [State.readF, State.setF, Vector.getElem_set, Fin.ext_iff]
  split <;> split <;> first | rfl | omega

@[simp] theorem readPReg_setPReg (s : State) (i j : PReg) (x : PointReg) :
    (s.setPReg i x).readPReg j = if j = i then x else s.readPReg j := by
  simp only [State.readPReg, State.setPReg, Vector.getElem_set, Fin.ext_iff]
  split <;> split <;> first | rfl | omega

@[simp] theorem readF_setP (s : State) (x : Vector PointReg 8) (j : FReg) : (s.setP x).readF j = s.readF j := rfl
@[simp] theorem readF_setCmdlat (s : State) (x : Word) (j : FReg) : (s.setCmdlat x).readF j = s.readF j := rfl
@[simp] theorem readPReg_setCmdlat (s : State) (x : Word) (j : PReg) : (s.setCmdlat x).readPReg j = s.readPReg j := rfl
@[simp] theorem readF_setStatus (s : State) (x : Status) (j : FReg) : (s.setStatus x).readF j = s.readF j := rfl
@[simp] theorem readPReg_setStatus (s : State) (x : Status) (j : PReg) : (s.setStatus x).readPReg j = s.readPReg j := rfl
@[simp] theorem readF_setIE (s : State) (x : IntEnable) (j : FReg) : (s.setIE x).readF j = s.readF j := rfl
@[simp] theorem readPReg_setIE (s : State) (x : IntEnable) (j : PReg) : (s.setIE x).readPReg j = s.readPReg j := rfl
@[simp] theorem readF_setWork (s : State) (x : Nat) (j : FReg) : (s.setWork x).readF j = s.readF j := rfl
@[simp] theorem readPReg_setWork (s : State) (x : Nat) (j : PReg) : (s.setWork x).readPReg j = s.readPReg j := rfl
@[simp] theorem readF_setPending (s : State) (x : List Event) (j : FReg) : (s.setPending x).readF j = s.readF j := rfl
@[simp] theorem readPReg_setPending (s : State) (x : List Event) (j : PReg) : (s.setPending x).readPReg j = s.readPReg j := rfl
@[simp] theorem readF_setRdata (s : State) (x : Option Word) (j : FReg) : (s.setRdata x).readF j = s.readF j := rfl
@[simp] theorem readPReg_setRdata (s : State) (x : Option Word) (j : PReg) : (s.setRdata x).readPReg j = s.readPReg j := rfl
@[simp] theorem readF_setResetAsserted (s : State) (x : Bool) (j : FReg) : (s.setResetAsserted x).readF j = s.readF j := rfl
@[simp] theorem readPReg_setResetAsserted (s : State) (x : Bool) (j : PReg) : (s.setResetAsserted x).readPReg j = s.readPReg j := rfl
@[simp] theorem readF_setPReg (s : State) (i : PReg) (x : PointReg) (j : FReg) : (s.setPReg i x).readF j = s.readF j := rfl
@[simp] theorem readPReg_setF (s : State) (i : FReg) (x : U256) (j : PReg) : (s.setF i x).readPReg j = s.readPReg j := rfl

/-- Field registers that all read alike are the same register file. -/
theorem f_ext {s t : State} (h : ∀ j, t.readF j = s.readF j) : t.f = s.f := by
  refine Vector.ext fun j hj => ?_
  exact h ⟨j, hj⟩

/-- Point registers that all read alike are the same register file. -/
theorem p_ext {s t : State} (h : ∀ j, t.readPReg j = s.readPReg j) : t.p = s.p := by
  refine Vector.ext fun j hj => ?_
  exact h ⟨j, hj⟩

/-! ### The reset state -/

@[simp] theorem resetOf_cmdlat (c : Curve) (b : Nat) (a : Bool) : (State.resetOf c b a).cmdlat = 0 := rfl
@[simp] theorem resetOf_status (c : Curve) (b : Nat) (a : Bool) : (State.resetOf c b a).status = Status.reset := rfl
@[simp] theorem resetOf_ie (c : Curve) (b : Nat) (a : Bool) : (State.resetOf c b a).ie = IntEnable.reset := rfl
@[simp] theorem resetOf_curve (c : Curve) (b : Nat) (a : Bool) : (State.resetOf c b a).curve = c := rfl
@[simp] theorem resetOf_basePage (c : Curve) (b : Nat) (a : Bool) : (State.resetOf c b a).basePage = b := rfl
@[simp] theorem resetOf_admitted (c : Curve) (b : Nat) (a : Bool) : (State.resetOf c b a).admitted = a := rfl
@[simp] theorem resetOf_resetAsserted (c : Curve) (b : Nat) (a : Bool) : (State.resetOf c b a).resetAsserted = false := rfl
@[simp] theorem resetOf_work (c : Curve) (b : Nat) (a : Bool) : (State.resetOf c b a).work = 0 := rfl
@[simp] theorem resetOf_pending (c : Curve) (b : Nat) (a : Bool) : (State.resetOf c b a).pending = [] := rfl
@[simp] theorem resetOf_rdata (c : Curve) (b : Nat) (a : Bool) : (State.resetOf c b a).rdata = none := rfl

@[simp] theorem readF_resetOf (c : Curve) (b : Nat) (a : Bool) (i : FReg) :
    (State.resetOf c b a).readF i = 0 := by
  simp [State.readF, State.resetOf]

@[simp] theorem readPReg_resetOf (c : Curve) (b : Nat) (a : Bool) (i : PReg) :
    (State.resetOf c b a).readPReg i = identityReg := by
  simp [State.readPReg, State.resetOf]

/-! ### A reset of the block -/

@[simp] theorem blockReset_f (s : State) : s.blockReset.f = Vector.replicate 16 0 := rfl
@[simp] theorem blockReset_p (s : State) : s.blockReset.p = Vector.replicate 8 identityReg := rfl
@[simp] theorem blockReset_cmdlat (s : State) : s.blockReset.cmdlat = 0 := rfl
@[simp] theorem blockReset_status (s : State) : s.blockReset.status = Status.reset := rfl
@[simp] theorem blockReset_ie (s : State) : s.blockReset.ie = IntEnable.reset := rfl
@[simp] theorem blockReset_curve (s : State) : s.blockReset.curve = s.curve := rfl
@[simp] theorem blockReset_basePage (s : State) : s.blockReset.basePage = s.basePage := rfl
@[simp] theorem blockReset_admitted (s : State) : s.blockReset.admitted = s.admitted := rfl
@[simp] theorem blockReset_resetAsserted (s : State) :
    s.blockReset.resetAsserted = s.resetAsserted := rfl
@[simp] theorem blockReset_pending (s : State) : s.blockReset.pending = s.pending := rfl
@[simp] theorem blockReset_rdata (s : State) : s.blockReset.rdata = s.rdata := rfl

@[simp] theorem readF_blockReset (s : State) (i : FReg) : s.blockReset.readF i = 0 := by
  simp [State.readF]

@[simp] theorem readPReg_blockReset (s : State) (i : PReg) :
    s.blockReset.readPReg i = identityReg := by
  simp [State.readPReg]

@[simp] theorem base_setPending (s : State) (x : List Event) : (s.setPending x).base = s.base := rfl

end Sys2Proof.Machine
end

