-- ==== Sys2Proof/Laws/Completion.lean ====
section
/-! SUPPORT. What completing a command can do (R192, R213), once for every command, and the point
registers as points (R24). -/

namespace Sys2Proof.Machine

/-! ### Point registers as points -/

@[simp] theorem pointOfReg_identityReg : pointOfReg identityReg = .identity := rfl

theorem pointOfReg_regOfPoint_identity : pointOfReg (regOfPoint .identity) = .identity := rfl

/-- An affine point that fits the registers reads back as it was written. -/
theorem pointOfReg_regOfPoint_affine {x y : Nat} (hx : x < 2 ^ 256) (hy : y < 2 ^ 256) :
    pointOfReg (regOfPoint (.affine x y)) = .affine x y := by
  simp only [pointOfReg, regOfPoint, BitVec.toNat_ofNat, Nat.mod_eq_of_lt hx, Nat.mod_eq_of_lt hy,
    Bool.false_eq_true, if_false]

@[simp] theorem readP_setStatus (s : State) (st : Status) (i : PReg) :
    (s.setStatus st).readP i = s.readP i := rfl

/-! ### Success and failure -/

@[simp] theorem succeed_status (s : State) (e : Effect) :
    (s.succeed e).status = { s.status with errcode := none, done := true, busy := false } := rfl

@[simp] theorem raise_status (s : State) (c : ErrCode) :
    (s.raise c).status =
      { s.status with errcode := some c, err := true, done := true, busy := false } := rfl

/-- Success leaves every field but STATUS, the destination and the working storage. -/
theorem succeed_frame (s : State) (e : Effect) :
    (s.succeed e).cmdlat = s.cmdlat ∧ (s.succeed e).ie = s.ie ∧ (s.succeed e).curve = s.curve
      ∧ (s.succeed e).basePage = s.basePage ∧ (s.succeed e).admitted = s.admitted
      ∧ (s.succeed e).resetAsserted = s.resetAsserted ∧ (s.succeed e).pending = s.pending
      ∧ (s.succeed e).rdata = s.rdata := by
  cases e <;> exact ⟨rfl, rfl, rfl, rfl, rfl, rfl, rfl, rfl⟩

/-- An error leaves every field but STATUS and the working storage. -/
theorem raise_frame (s : State) (c : ErrCode) :
    (s.raise c).f = s.f ∧ (s.raise c).p = s.p ∧ (s.raise c).cmdlat = s.cmdlat
      ∧ (s.raise c).ie = s.ie ∧ (s.raise c).curve = s.curve
      ∧ (s.raise c).basePage = s.basePage ∧ (s.raise c).admitted = s.admitted
      ∧ (s.raise c).resetAsserted = s.resetAsserted ∧ (s.raise c).pending = s.pending
      ∧ (s.raise c).rdata = s.rdata :=
  ⟨rfl, rfl, rfl, rfl, rfl, rfl, rfl, rfl, rfl, rfl⟩

@[simp] theorem readF_raise (s : State) (c : ErrCode) (j : FReg) :
    (s.raise c).readF j = s.readF j := rfl

@[simp] theorem readPReg_raise (s : State) (c : ErrCode) (j : PReg) :
    (s.raise c).readPReg j = s.readPReg j := rfl

@[simp] theorem readF_succeed_nothing (s : State) (j : FReg) :
    (s.succeed .nothing).readF j = s.readF j := rfl

@[simp] theorem readPReg_succeed_nothing (s : State) (j : PReg) :
    (s.succeed .nothing).readPReg j = s.readPReg j := rfl

@[simp] theorem readF_succeed_field (s : State) (rd j : FReg) (v : Nat) :
    (s.succeed (.field rd v)).readF j = if j = rd then BitVec.ofNat 256 v else s.readF j := by
  simp [State.succeed, State.apply, State.redrawWork]

@[simp] theorem readPReg_succeed_field (s : State) (rd : FReg) (v : Nat) (j : PReg) :
    (s.succeed (.field rd v)).readPReg j = s.readPReg j := rfl

@[simp] theorem readPReg_succeed_point (s : State) (pd j : PReg) (q : Point) :
    (s.succeed (.point pd q)).readPReg j = if j = pd then regOfPoint q else s.readPReg j := by
  simp [State.succeed, State.apply, State.redrawWork]

@[simp] theorem readF_succeed_point (s : State) (pd : PReg) (q : Point) (j : FReg) :
    (s.succeed (.point pd q)).readF j = s.readF j := rfl

/-- R24: a point in range reads back from the register a command wrote it to. -/
theorem readP_succeed_point (s : State) (pd : PReg) {q : Point}
    (h : Point.inRange s.curve.p.toNat q = true) : (s.succeed (.point pd q)).readP pd = q := by
  unfold State.readP
  rw [readPReg_succeed_point, if_pos rfl]
  cases q with
  | identity => rfl
  | affine x y =>
    simp only [Point.inRange, Bool.and_eq_true, decide_eq_true_eq] at h
    exact pointOfReg_regOfPoint_affine (lt_trans h.1 (BitVec.isLt _)) (lt_trans h.2 (BitVec.isLt _))

/-! ### Completion as an outcome -/

/-- A command completes, whatever its result. -/
@[simp] theorem finish_eq (s : State) (r : Result) : s.finish r = .next (s.complete r) := rfl

@[simp] theorem complete_ok (s : State) (e : Effect) : s.complete (.ok e) = s.succeed e := rfl

@[simp] theorem complete_error (s : State) (c : ErrCode) : s.complete (.error c) = s.raise c := rfl

/-- Completion leaves CMDLAT, IE, the instance, the reset input and what the host has still to do. -/
theorem complete_frame (s : State) (r : Result) :
    (s.complete r).cmdlat = s.cmdlat ∧ (s.complete r).ie = s.ie ∧ (s.complete r).curve = s.curve
      ∧ (s.complete r).basePage = s.basePage ∧ (s.complete r).admitted = s.admitted
      ∧ (s.complete r).resetAsserted = s.resetAsserted ∧ (s.complete r).pending = s.pending
      ∧ (s.complete r).rdata = s.rdata := by
  cases r with
  | ok e => exact succeed_frame s e
  | error c => exact (raise_frame s c).2.2

end Sys2Proof.Machine
end

