-- ==== Sys2Proof/Laws/Engine.lean ====
section
/-! SUPPORT. Everything one instruction, one host access, one engine turn and one step can do, said once. -/

namespace Sys2Proof.Machine

/-- Every instruction completes, in every state, with some result. -/
theorem exec_completes (i : Instr) (s : State) : ∃ r, exec i s = .next (s.complete r) := by
  cases i <;> exact ⟨_, rfl⟩

/-- An instruction that answers a next state has completed. -/
theorem exec_next {i : Instr} {s t : State} (h : exec i s = .next t) : ∃ r, t = s.complete r := by
  obtain ⟨r, h'⟩ := exec_completes i s
  rw [h'] at h
  exact ⟨r, (Host.Outcome.next.inj h).symm⟩

/-- While idle the engine's turn changes nothing (R192, R241). -/
theorem engineTurn_idle {s : State} (h : s.status.busy = false) : engineTurn s = .next s := by
  simp [engineTurn, h]

/-- The engine's turn completes a pending command, whatever its word. -/
theorem engineTurn_busy_next {s t : State} (hb : s.status.busy = true)
    (h : engineTurn s = .next t) : ∃ r, t = s.complete r := by
  simp only [engineTurn, hb, if_true] at h
  split at h
  · exact exec_next h
  · exact ⟨.error .illegalOp, (Host.Outcome.next.inj h).symm⟩

/-- Everything the engine's turn can do. -/
theorem engineTurn_next {s t : State} (h : engineTurn s = .next t) :
    (s.status.busy = false ∧ t = s) ∨ (s.status.busy = true ∧ ∃ r, t = s.complete r) := by
  cases hb : s.status.busy
  · rw [engineTurn_idle hb] at h
    exact .inl ⟨rfl, (Host.Outcome.next.inj h).symm⟩
  · exact .inr ⟨rfl, engineTurn_busy_next hb h⟩

/-- A host read that is answered leaves everything but the returned data (R68). -/
theorem hostRead_next {s t : State} {addr size : Nat} (h : s.hostRead addr size = .next t) :
    ∃ r, s.route addr size = .location r ∧ t = s.setRdata (some (s.readReg r)) := by
  unfold State.hostRead at h
  split at h
  · next r hr => exact ⟨r, hr, (Host.Outcome.next.inj h).symm⟩
  · cases h
  · cases h

/-- A host write that is accepted acts on the location it lands on, unless reset is asserted. -/
theorem hostWrite_next {s t : State} {addr size : Nat} {v : Word}
    (h : s.hostWrite addr size v = .next t) :
    ∃ r, s.route addr size = .location r
      ∧ t = (if s.resetAsserted then s else s.writeReg r v).setRdata none := by
  unfold State.hostWrite at h
  split at h
  · next r hr => exact ⟨r, hr, (Host.Outcome.next.inj h).symm⟩
  · cases h
  · cases h

/-- An instance that was not admitted is refused at every step (R8). -/
theorem step_not_admitted {s : State} (h : s.admitted = false) :
    step s = .refused .malformedCurve := by
  simp [step, advance, h]

/-- A step of an admitted block is its next event. -/
theorem step_admitted {s : State} (h : s.admitted = true) : step s = nextEvent s := by
  simp [step, advance, h]

/-- Everything one step can do: the block is admitted, and it is the engine's turn with nothing pending,
or the first pending event. -/
theorem step_next {s t : State} (h : step s = .next t) :
    s.admitted = true ∧ ((s.pending = [] ∧ engineTurn s = .next t)
      ∨ ∃ e rest, s.pending = e :: rest ∧ runEvent e (s.setPending rest) = .next t) := by
  cases ha : s.admitted
  · rw [step_not_admitted ha] at h
    cases h
  · rw [step_admitted ha] at h
    refine ⟨rfl, ?_⟩
    unfold nextEvent at h
    split at h
    · next hp => exact .inl ⟨hp, h⟩
    · next e rest hp => exact .inr ⟨e, rest, hp, h⟩

end Sys2Proof.Machine
end

