-- ==== Sys2Proof/Laws/Instance.lean ====
section
/-! SUPPORT. The instance the model is of: its `CURVE` is well formed (R8, R242), and which instances are
admitted. -/

namespace Sys2Proof.Machine

/-- The toy instance T of 95_test_vectors.md is well formed. -/
theorem toyCurve_wellFormed : curveWellFormed Config.toyCurve := by decide +kernel

/-- The `CURVE` of this instance is well formed. -/
theorem config_curve_wellFormed : curveWellFormed Config.curve := by
  unfold Config.curve
  split
  · assumption
  · exact toyCurve_wellFormed

@[simp] theorem instantiate_admitted (c : Curve) (b : Nat) :
    (State.instantiate c b).admitted = decide (curveWellFormed c) := rfl

/-- The reset state is the instance that is built with `Config.curve`. -/
theorem reset_eq_instantiate : State.reset = State.instantiate Config.curve Config.basePage := by
  unfold State.instantiate
  rw [decide_eq_true config_curve_wellFormed]
  rfl

end Sys2Proof.Machine
end

