-- ==== Sys2Proof/Laws/PerInstr.lean ====
section
/-! SUPPORT. Facts about every instruction as syntax, one lemma per constructor. -/

namespace Sys2Proof.Laws

/-- The 32 bits an encoding sums to are not cut: the sum is below `2^32`. -/
theorem toNat_encF (op : Nat) (hop : op < 64) (rd rs1 rs2 rm : FReg) (msel : ModSel) :
    (encF op rd rs1 rs2 rm msel).toNat = op * 2 ^ 26 + rd.val * 2 ^ 22 + rs1.val * 2 ^ 18
      + rs2.val * 2 ^ 14 + rm.val * 2 ^ 10 + msel.code * 2 ^ 8 := by
  have hm : msel.code ≤ 2 := by cases msel <;> decide
  simp only [encF, BitVec.toNat_ofNat]
  omega

/-- The 32 bits an encoding sums to are not cut: the sum is below `2^32`. -/
theorem toNat_encP (op : Nat) (hop : op < 64) (pd ps1 ps2 : PReg) (rk : FReg) (gsel chk : Bool) :
    (encP op pd ps1 ps2 rk gsel chk).toNat = op * 2 ^ 26 + pd.val * 2 ^ 23 + ps1.val * 2 ^ 20
      + ps2.val * 2 ^ 17 + rk.val * 2 ^ 13 + gsel.toNat * 2 ^ 12 + chk.toNat * 2 ^ 11 := by
  have hg : gsel.toNat ≤ 1 := Bool.toNat_le gsel
  have hc : chk.toNat ≤ 1 := Bool.toNat_le chk
  simp only [encP, BitVec.toNat_ofNat]
  omega

/-- The opcode of a command (R91). -/
def opcode : Instr → Nat
  | .nop => 0x00
  | .montmul _ _ _ _ _ => 0x01
  | .barrett _ _ _ _ _ => 0x02
  | .modexp _ _ _ _ _ => 0x03
  | .modinv _ _ _ _ => 0x04
  | .padd _ _ _ => 0x08
  | .pdbl _ _ => 0x09
  | .smul _ _ _ _ _ => 0x0A

/-- R91: the word of every command, well formed or not, has its opcode in bits 31 to 26. -/
def OpcodeBits.Statement (i : Instr) : Prop := bits (encode i) 31 26 = opcode i

theorem opcodeBits_encF (op : Nat) (hop : op < 64) (rd rs1 rs2 rm : FReg) (msel : ModSel) :
    bits (encF op rd rs1 rs2 rm msel) 31 26 = op := by
  have hm : msel.code ≤ 2 := by cases msel <;> decide
  simp only [bits, toNat_encF op hop]
  omega

theorem opcodeBits_encP (op : Nat) (hop : op < 64) (pd ps1 ps2 : PReg) (rk : FReg)
    (gsel chk : Bool) : bits (encP op pd ps1 ps2 rk gsel chk) 31 26 = op := by
  have hg : gsel.toNat ≤ 1 := Bool.toNat_le gsel
  have hc : chk.toNat ≤ 1 := Bool.toNat_le chk
  simp only [bits, toNat_encP op hop]
  omega

theorem OpcodeBits.nop : OpcodeBits.Statement .nop := rfl

theorem OpcodeBits.montmul (rd rs1 rs2 rm : FReg) (msel : ModSel) :
    OpcodeBits.Statement (.montmul rd rs1 rs2 rm msel) :=
  opcodeBits_encF 0x01 (by decide) rd rs1 rs2 rm msel

theorem OpcodeBits.barrett (rd rs1 rs2 rm : FReg) (msel : ModSel) :
    OpcodeBits.Statement (.barrett rd rs1 rs2 rm msel) :=
  opcodeBits_encF 0x02 (by decide) rd rs1 rs2 rm msel

theorem OpcodeBits.modexp (rd rs1 rs2 rm : FReg) (msel : ModSel) :
    OpcodeBits.Statement (.modexp rd rs1 rs2 rm msel) :=
  opcodeBits_encF 0x03 (by decide) rd rs1 rs2 rm msel

theorem OpcodeBits.modinv (rd rs1 rm : FReg) (msel : ModSel) :
    OpcodeBits.Statement (.modinv rd rs1 rm msel) :=
  opcodeBits_encF 0x04 (by decide) rd rs1 0 rm msel

theorem OpcodeBits.padd (pd ps1 ps2 : PReg) : OpcodeBits.Statement (.padd pd ps1 ps2) :=
  opcodeBits_encP 0x08 (by decide) pd ps1 ps2 0 false false

theorem OpcodeBits.pdbl (pd ps1 : PReg) : OpcodeBits.Statement (.pdbl pd ps1) :=
  opcodeBits_encP 0x09 (by decide) pd ps1 0 0 false false

theorem OpcodeBits.smul (pd ps1 : PReg) (rk : FReg) (gsel chk : Bool) :
    OpcodeBits.Statement (.smul pd ps1 rk gsel chk) :=
  opcodeBits_encP 0x0A (by decide) pd ps1 0 rk gsel chk

end Sys2Proof.Laws
end

