-- ==== Sys2Proof/Tests/Slice0.lean ====
section
/-! SUPPORT. Tests: words written out from the encoding tables, ill-formed terms, the spec's own vectors,
and for every obligation with hypotheses a state and operands that meet them.  Expected values come
from 30_encoding.md and 95_test_vectors.md. -/

namespace Sys2Proof.Tests

open Sys2Proof.Machine Sys2Proof.Config

/-! ### States -/

/-- The toy instance T of 95_test_vectors.md (`y^2 = x^3 + 2x + 2` over `F_17`, `n = 19`, `G = (5, 1)`) after
reset, with its window at `0x3000`. -/
def toy : State := State.resetOf toyCurve 3 true

theorem toy_eq_instantiate : toy = State.instantiate toyCurve 3 := by
  unfold State.instantiate
  rw [decide_eq_true toyCurve_wellFormed]
  rfl

/-- Instance T with registers loaded. -/
def loaded (fs : List (FReg × Nat)) (ps : List (PReg × Point)) : State :=
  ps.foldl (fun s x => s.setPReg x.1 (regOfPoint x.2))
    (fs.foldl (fun s x => s.setF x.1 (BitVec.ofNat 256 x.2)) toy)

/-- The state a step reaches, or none where it stops. -/
def nextOf : Host.Outcome State Fault Refusal → Option State
  | .next t => some t
  | .fault _ => none
  | .refused _ => none

/-- The reason a step faults, if it does. -/
def faultOf : Host.Outcome State Fault Refusal → Option Fault
  | .next _ => none
  | .fault e => some e
  | .refused _ => none

/-- STATUS and one field register after the word ran. -/
def fieldAfter (s : State) (w : Nat) (i : FReg) : Option (Word × Nat) :=
  (nextOf (step (s.withFetchWord 32 w))).map fun t => (t.readReg .status, t.natF i)

/-- STATUS and one point register after the word ran. -/
def pointAfter (s : State) (w : Nat) (i : PReg) : Option (Word × Point) :=
  (nextOf (step (s.withFetchWord 32 w))).map fun t => (t.readReg .status, t.readP i)

/-- The last word accepted is `c`, and it has not completed. -/
def busy (c : Word) : State := toy.accept c

/-- Instance T with one host write next. -/
def writing (s : State) (off : Nat) (v : Word) : State := s.setPending [.write (s.base + off) 4 v]

/-- Instance T with one host read next. -/
def reading (s : State) (off : Nat) : State := s.setPending [.read (s.base + off) 4]

/-- What a host read of the window returns. -/
def readBack (s : State) (off : Nat) : Option Word := (nextOf (step (reading s off))).bind (·.rdata)

/-- A host write, and STATUS, PINF and F0 after it. -/
def afterWrite (s : State) (off : Nat) (v : Word) : Option (Word × Word × Nat) :=
  (nextOf (step (writing s off v))).map fun t => (t.readReg .status, t.readReg .pinf, t.natF 0)

/-! ### Words written out from R91 to R95 (R102's worked encodings and the illegal words of R99) -/

theorem test_decode_nop : decode 0b00000000000000000000000000000000#32 = .ok .nop := by rfl

-- opcode 000001, rd 0010, rs1 0000, rs2 0001, rm 0011, msel 00, reserved 00000000
theorem test_decode_montmul :
    decode 0b000001_0010_0000_0001_0011_00_00000000#32 = .ok (.montmul 2 0 1 3 .freg) := by rfl

theorem test_decode_montmul_p : decode 0x05554100#32 = .ok (.montmul 5 5 5 0 .curveP) := by rfl

-- opcode 000010, rd 1111, rs1 1110, rs2 1101, rm 0000, msel 10
theorem test_decode_barrett :
    decode 0b000010_1111_1110_1101_0000_10_00000000#32 = .ok (.barrett 15 14 13 0 .curveN) := by
  rfl

-- opcode 000011, rd 0110, rs1 0001, rs2 0010, rm 0000, msel 01
theorem test_decode_modexp :
    decode 0b000011_0110_0001_0010_0000_01_00000000#32 = .ok (.modexp 6 1 2 0 .curveP) := by rfl

-- opcode 000100, rd 0111, rs1 0001, rs2 0000, rm 0011, msel 00
theorem test_decode_modinv :
    decode 0b000100_0111_0001_0000_0011_00_00000000#32 = .ok (.modinv 7 1 3 .freg) := by rfl

-- opcode 001000, pd 010, ps1 000, ps2 001, rk 0000, gsel 0, chk 0, reserved 00000000000
theorem test_decode_padd :
    decode 0b001000_010_000_001_0000_0_0_00000000000#32 = .ok (.padd 2 0 1) := by rfl

-- opcode 001001, pd 011, ps1 011
theorem test_decode_pdbl :
    decode 0b001001_011_011_000_0000_0_0_00000000000#32 = .ok (.pdbl 3 3) := by rfl

-- opcode 001010, pd 111, ps1 110, ps2 000, rk 1111, gsel 0, chk 1
theorem test_decode_smul :
    decode 0b001010_111_110_000_1111_0_1_00000000000#32 = .ok (.smul 7 6 15 false true) := by rfl

theorem test_decode_smul_base :
    decode 0x28809000#32 = .ok (.smul 1 0 4 true false)
      ∧ decode 0x28809800#32 = .ok (.smul 1 0 4 true true) := ⟨by rfl, by rfl⟩

theorem test_decode_rejects_by_name :
    decode 0x14000000#32 = .error .opcodeReserved ∧ decode 0xFC000000#32 = .error .opcodeReserved
      ∧ decode 0x00000001#32 = .error .reservedBitSet
      ∧ decode 0x04000001#32 = .error .reservedBitSet
      ∧ decode 0x04000300#32 = .error .mselReserved ∧ decode 0x04000500#32 = .error .rmNotZero
      ∧ decode 0x10004000#32 = .error .modinvRs2NotZero
      ∧ decode 0x20001000#32 = .error .paddFieldNotZero
      ∧ decode 0x24020000#32 = .error .pdblFieldNotZero
      ∧ decode 0x28820000#32 = .error .smulFieldNotZero
      ∧ decode 0x28901000#32 = .error .smulFieldNotZero
      ∧ decode 0x28000001#32 = .error .reservedBitSet :=
  ⟨by rfl, by rfl, by rfl, by rfl, by rfl, by rfl, by rfl, by rfl, by rfl, by rfl, by rfl, by rfl⟩

theorem test_encode_worked :
    encode (.montmul 5 5 5 0 .curveP) = 0x05554100#32 ∧ encode (.barrett 4 1 0 3 .freg) = 0x09040C00#32
      ∧ encode (.modexp 6 1 2 0 .curveP) = 0x0D848100#32
      ∧ encode (.modinv 7 1 0 .curveP) = 0x11C40100#32 ∧ encode (.padd 2 0 1) = 0x21020000#32
      ∧ encode (.pdbl 3 3) = 0x25B00000#32 ∧ encode (.smul 1 0 4 false false) = 0x28808000#32
      ∧ encode .nop = 0x00000000#32 := by decide

/-- R105: the words Programs 1 and 2 of 95_test_vectors.md give for the pseudo-instructions. -/
theorem test_encode_pseudo :
    encode (Instr.keymul 1 0) = 0x28801800#32 ∧ encode (Instr.smulg 0 0) = 0x28001000#32
      ∧ encode (Instr.invp 7 1) = 0x11C40100#32
      ∧ encode (Instr.fromm 2 2 8 3 .freg) = 0x048A0C00#32 := by decide

theorem test_decodeTableWord :
    decodeTableWord 32 0x2BE1E800 = some (.smul 7 6 15 false true)
      ∧ decodeTableWord 32 0x14000000 = none := by decide

theorem test_asm :
    Instr.asm (.barrett 15 14 13 0 .curveN) = "barrett f15, f14, f13, n"
      ∧ Instr.asm (.smul 1 0 4 true true) = "smul p1, f4, G, chk" := by decide

/-- R101: no two rows of the table overlap. -/
theorem test_rows_disjoint :
    ([Instr.nop, .montmul 0 0 0 0 .freg, .barrett 0 0 0 0 .freg, .modexp 0 0 0 0 .freg,
        .modinv 0 0 0 .freg, .padd 0 0 0, .pdbl 0 0, .smul 0 0 0 false false].map Instr.row).Pairwise
      fun r q => r.matched &&& q.mask &&& r.mask ≠ q.matched &&& r.mask := by decide

/-! ### WellFormed: each check refuses an ill-formed term -/

theorem test_wellFormed_rm :
    Instr.wellFormed (.montmul 0 0 0 1 .curveP) = false
      ∧ Instr.wellFormed (.barrett 0 0 0 15 .curveN) = false
      ∧ Instr.wellFormed (.modexp 0 0 0 8 .curveP) = false
      ∧ Instr.wellFormed (.modinv 0 0 2 .curveN) = false := by decide

theorem test_wellFormed_gsel :
    Instr.wellFormed (.smul 0 1 0 true false) = false
      ∧ Instr.wellFormed (.smul 0 7 0 true true) = false := by decide

theorem test_wellFormed_accepts :
    Instr.wellFormed (.montmul 0 0 0 15 .freg) = true
      ∧ Instr.wellFormed (.smul 0 7 0 false true) = true := by decide

/-! ### One step on the spec's vectors -/

/-- V-C-10: NOP clears an earlier error. -/
theorem test_nop :
    fieldAfter (toy.setStatus ⟨false, true, true, false, false, some .notInvertible⟩) 0 0
      = some (0x00000002#32, 0) := by decide +kernel

/-- MONTMUL: R122's example, unreduced operands, an even modulus, and `m = p` (T). -/
theorem test_montmul :
    fieldAfter (loaded [(0, 3), (1, 5), (3, 19)] []) 0x04804C00 2 = some (0x00000002#32, 14)
      ∧ fieldAfter (loaded [(0, 2 ^ 256 - 1), (1, 2 ^ 256 - 1), (3, 19)] []) 0x04804C00 2
          = some (0x00000002#32, 1)
      ∧ fieldAfter (loaded [(0, 3), (1, 5), (3, 18)] []) 0x04804C00 2 = some (0x00000206#32, 0)
      ∧ fieldAfter (loaded [(5, 3)] []) 0x05554100 5 = some (0x00000002#32, 9) := by
  decide +kernel

/-- BARRETT: R126's example, a full dividend, and an even modulus (T). -/
theorem test_barrett :
    fieldAfter (loaded [(1, 1), (0, 0), (3, 19)] []) 0x09040C00 4 = some (0x00000002#32, 16)
      ∧ fieldAfter (loaded [(1, 2 ^ 256 - 1), (0, 2 ^ 256 - 1), (3, 19)] []) 0x09040C00 4
          = some (0x00000002#32, 8)
      ∧ fieldAfter (loaded [(1, 5), (0, 7), (3, 1000)] []) 0x09040C00 4
          = some (0x00000002#32, 687)
      ∧ fieldAfter (loaded [(1, 1), (3, 0)] []) 0x09040C00 4 = some (0x00000206#32, 0) := by
  decide +kernel

/-- MODEXP: R130's example, `0^0`, and an even modulus (T). -/
theorem test_modexp :
    fieldAfter (loaded [(1, 5), (2, 17)] []) 0x0D848200 6 = some (0x00000002#32, 4)
      ∧ fieldAfter (loaded [(1, 0), (2, 0), (3, 19)] []) 0x0D848C00 6 = some (0x00000002#32, 1)
      ∧ fieldAfter (loaded [(1, 2), (2, 3), (3, 16)] []) 0x0D848C00 6
          = some (0x00000206#32, 0) := by
  decide +kernel

/-- MODINV: R134's example, an even modulus, no inverse, and the order of the errors (T). -/
theorem test_modinv :
    fieldAfter (loaded [(1, 5)] []) 0x11C40100 7 = some (0x00000002#32, 7)
      ∧ fieldAfter (loaded [(1, 3), (3, 8)] []) 0x11C40C00 7 = some (0x00000002#32, 3)
      ∧ fieldAfter (loaded [(1, 6), (3, 9), (7, 1)] []) 0x11C40C00 7 = some (0x00000306#32, 1)
      ∧ fieldAfter (loaded [(1, 4), (3, 0)] []) 0x11C40C00 7 = some (0x00000206#32, 0) := by
  decide +kernel

/-- PDBL: R151's example, the vertical tangent, the range check, and a point off the curve (T). -/
theorem test_pdbl :
    pointAfter (loaded [] [(3, .affine 5 1)]) 0x25B00000 3 = some (0x00000002#32, .affine 6 3)
      ∧ pointAfter (loaded [] [(3, .affine 3 0)]) 0x25B00000 3 = some (0x00000002#32, .identity)
      ∧ pointAfter (loaded [] [(3, .affine 17 1)]) 0x25B00000 3
          = some (0x00000506#32, .affine 17 1)
      ∧ pointAfter (loaded [] [(1, .affine 1 1)]) 0x25100000 2
          = some (0x00000002#32, .affine 0 10) := by
  decide +kernel

/-- PADD: R152's example, inverse points, a destination that is a source, and the range check (T). -/
theorem test_padd :
    pointAfter (loaded [] [(0, .affine 5 1), (1, .affine 6 3)]) 0x21020000 2
        = some (0x00000002#32, .affine 10 6)
      ∧ pointAfter (loaded [] [(0, .affine 5 1), (1, .affine 5 16)]) 0x21020000 2
          = some (0x00000002#32, .identity)
      ∧ pointAfter (loaded [] [(0, .affine 5 1), (1, .affine 6 3)]) 0x20020000 0
          = some (0x00000002#32, .affine 10 6)
      ∧ pointAfter (loaded [] [(1, .affine 20 3)]) 0x21020000 2
          = some (0x00000506#32, .identity) := by
  decide +kernel

/-- SMUL of the base point: 7, the order, the order with the check, and the largest scalar (T). -/
theorem test_smul_base :
    pointAfter (loaded [(4, 7)] []) 0x28809000 1 = some (0x00000002#32, .affine 0 6)
      ∧ pointAfter (loaded [(4, 19)] []) 0x28809000 1 = some (0x00000002#32, .identity)
      ∧ pointAfter (loaded [(4, 19)] []) 0x28809800 1 = some (0x00000406#32, .identity)
      ∧ pointAfter (loaded [(4, 2 ^ 256 - 1)] []) 0x28809000 1
          = some (0x00000002#32, .affine 3 16) := by
  decide +kernel

/-- SMUL of a point register: a multiple, the order of the errors, and a point off the curve (T). -/
theorem test_smul_register :
    pointAfter (loaded [(4, 5)] [(0, .affine 6 3)]) 0x28808000 1
        = some (0x00000002#32, .affine 7 11)
      ∧ pointAfter (loaded [(4, 0)] [(0, .affine 5 17)]) 0x28808800 1
          = some (0x00000406#32, .identity)
      ∧ pointAfter (loaded [(4, 3)] [(0, .affine 3 0)]) 0x28808000 1
          = some (0x00000002#32, .affine 3 0) := by
  decide +kernel

/-! ### The window and the lifecycle (V-C vectors and Program 5) -/

theorem test_window_reads :
    readBack toy 0x000 = some 0xECC00001#32 ∧ readBack toy 0x014 = some 0x000000FF#32
      ∧ readBack toy 0x500 = some 0x00000011#32 ∧ readBack toy 0x560 = some 0x00000013#32
      ∧ readBack toy 0x5A0 = some 0x00000001#32 := by decide +kernel

/-- V-C-4: two words of F0. -/
theorem test_window_words :
    afterWrite toy 0x100 0x04030201#32 = some (0#32, 0xFF#32, 0x04030201)
      ∧ afterWrite toy 0x104 0x00000001#32 = some (0#32, 0xFF#32, 0x100000000) := by
  decide +kernel

/-- V-C-6, V-C-7, and the dropped write of Program 5, step 2. -/
theorem test_window_pinf :
    afterWrite toy 0x014 0x000000FE#32 = some (0#32, 0xFE#32, 0)
      ∧ afterWrite toy 0x014 0xFFFFFF00#32 = some (0#32, 0x00#32, 0)
      ∧ afterWrite (busy 0x04804C00#32) 0x100 9#32 = some (0x00000011#32, 0xFF#32, 0) := by
  decide +kernel

/-- V-C-5: bus errors. -/
theorem test_bus_errors :
    faultOf (toy.hostRead (toy.base + 0x002) 4) = some .busErrorAlignment
      ∧ faultOf (toy.hostWrite (toy.base + 0x100) 1 0) = some .busErrorSize
      ∧ faultOf (toy.hostRead (toy.base + 0x018) 4) = some .busErrorReserved
      ∧ faultOf (toy.hostWrite (toy.base + 0x5C0) 4 0) = some .busErrorReserved := by
  decide +kernel

/-- V-C-12: an illegal word, and its interrupt. -/
theorem test_illegal_word :
    (nextOf (step ((toy.setIE (ieOfWord 2#32)).withFetchWord 32 0x14000000))).map
      (fun t => (t.readReg .status, t.readReg .cmd, t.irq))
      = some (0x00000106#32, 0x14000000#32, true) := by decide +kernel

/-- V-C-14: a soft reset discards a pending command. -/
theorem test_soft_reset :
    (nextOf (step (writing (busy 0x04804C00#32) 0x004 1#32))).map
      (fun t => (t.readReg .status, t.readReg .cmd, t.readReg .pinf)) = some (0#32, 0#32, 0xFF#32) := by
  decide +kernel

/-- R240: while reset is asserted a write is lost and a read gives the reset value. -/
theorem test_reset_asserted :
    ((nextOf (step ((loaded [(0, 5)] []).setPending [.resetAssert]))).bind fun t =>
        afterWrite t 0x100 9#32) = some (0#32, 0xFF#32, 0)
      ∧ ((nextOf (step ((busy 0x04804C00#32).setPending [.resetAssert]))).bind fun t =>
        readBack t 0x010) = some 0#32 := by decide +kernel

/-- R8: an instance with the composite `p = 15`, and one with a wrong `n`, are refused at every step. -/
theorem test_malformed_instances :
    (State.instantiate ⟨15, 1, 1, 19, 0, 1⟩ 0).admitted = false
      ∧ (State.instantiate ⟨17, 2, 2, 18, 5, 1⟩ 0).admitted = false
      ∧ nextOf (step (State.instantiate ⟨17, 2, 2, 38, 5, 1⟩ 0)) = none := by decide +kernel

/-! ### Witnesses: for each obligation with hypotheses, what meets them -/

theorem exists_next {o : Host.Outcome State Fault Refusal} (P : State → Bool)
    (h : (nextOf o).any P = true) : ∃ t, o = .next t ∧ P t = true := by
  cases o with
  | next t => exact ⟨t, rfl, h⟩
  | fault e => cases h
  | refused e => cases h

theorem hostWrites_writing {s : State} (off : Nat) (v : Word) (h : s.admitted = true)
    (h' : s.resetAsserted = false) :
    HostWrites (writing s off v) off v [] :=
  ⟨rfl, h, h'⟩

theorem hostReads_reading {s : State} (off : Nat) (h : s.admitted = true) :
    HostReads (reading s off) off [] := ⟨rfl, h⟩

/-- A reset asserted over a pending command, a write and a read while it is asserted, and its release. -/
theorem witness_HardResetResetsTheBlock :
    (∃ s : State, s.admitted = true ∧ s.pending = .resetAssert :: [.engine]
        ∧ s.status.busy = true)
      ∧ (∃ s t : State, s.resetAsserted = true ∧ s.registersAtReset ∧ step s = .next t
        ∧ t.resetAsserted = true)
      ∧ (∃ s : State, s.admitted = true ∧ s.resetAsserted = true
        ∧ s.pending = .write (s.base + WindowReg.offset .cmd) 4 0 :: [])
      ∧ (∃ s : State, s.admitted = true ∧ s.resetAsserted = true
        ∧ s.pending = .resetRelease :: []) :=
  ⟨⟨(busy 0x04804C00#32).setPending [.resetAssert, .engine], rfl, rfl, rfl⟩,
    ⟨toy.setResetAsserted true, _, rfl,
      ⟨readF_resetOf toyCurve 3 true, readPReg_resetOf toyCurve 3 true, rfl, rfl, rfl⟩, rfl, rfl⟩,
    ⟨(toy.setResetAsserted true).setPending [.write (toy.base + 0x010) 4 0], rfl, rfl, rfl⟩,
    ⟨(toy.setResetAsserted true).setPending [.resetRelease], rfl, rfl, rfl⟩⟩

theorem witness_SoftResetResetsTheBlock :
    ∃ s1 s2 v1 v2, HostWrites s1 0x004 v1 [] ∧ v1.getLsbD 0 = true
      ∧ HostWrites s2 0x004 v2 [] ∧ v2.getLsbD 0 = false :=
  ⟨writing (busy 0) 0x004 1#32, writing toy 0x004 0xFFFFFFFE#32, 1#32, 0xFFFFFFFE#32,
    ⟨rfl, rfl, rfl⟩, by decide, ⟨rfl, rfl, rfl⟩, by decide⟩

theorem witness_SoftResetForgetsEveryRegister :
    ∃ s1 s2 t1 t2, HostWrites s1 0x004 1#32 [] ∧ HostWrites s2 0x004 1#32 []
      ∧ s1.status ≠ s2.status ∧ s1.f ≠ s2.f ∧ s1.curve = s2.curve ∧ s1.basePage = s2.basePage
      ∧ step s1 = .next t1 ∧ step s2 = .next t2 := by
  obtain ⟨t1, h1, -⟩ := exists_next (fun _ => true)
    (show (nextOf (step (writing (busy 0) 0x004 1#32))).any (fun _ => true) = true by decide +kernel)
  obtain ⟨t2, h2, -⟩ := exists_next (fun _ => true)
    (show (nextOf (step (writing (loaded [(3, 5)] []) 0x004 1#32))).any (fun _ => true) = true by
      decide +kernel)
  exact ⟨writing (busy 0) 0x004 1#32, writing (loaded [(3, 5)] []) 0x004 1#32, t1, t2, ⟨rfl, rfl, rfl⟩,
    ⟨by decide +kernel, by decide +kernel, by decide +kernel⟩, by decide +kernel, by decide +kernel,
    by decide +kernel, by decide +kernel, h1, h2⟩

theorem busy_consistent (c : Word) : (busy c).consistent :=
  ⟨fun _ => ⟨rfl, rfl, rfl⟩, fun h => Bool.noConfusion (show false = true from h),
    fun h => Bool.noConfusion (show false = true from h), fun _ => toyCurve_wellFormed⟩

theorem witness_StepKeepsStatusConsistent :
    ∃ s t, s.consistent ∧ s.status.busy = true ∧ step s = .next t :=
  ⟨busy 0, _, busy_consistent 0, rfl, rfl⟩

theorem witness_StepKeepsCurveAndBase : ∃ s t, step s = .next t := ⟨busy 0, _, rfl⟩

theorem witness_PendingCommandFreezesData :
    ∃ s t, s.status.busy = true ∧ step s = .next t ∧ t.status.busy = true := by
  obtain ⟨t, h, hb⟩ := exists_next (fun t => t.status.busy)
    (show (nextOf (step (writing (busy 0) 0x100 9#32))).any (fun t => t.status.busy) = true by
      decide +kernel)
  exact ⟨_, t, rfl, h, hb⟩

theorem witness_DoneRisesOnlyAtCompletion :
    ∃ s t, step s = .next t ∧ s.status.done = false ∧ t.status.done = true :=
  ⟨busy 0, _, rfl, rfl, rfl⟩

/-- Two states that differ, in their working storage only: one pair each that steps, faults and is
refused. -/
theorem witness_WorkingStorageIsUnobservable :
    (∃ s1 s2 t, SameButWork s1 s2 ∧ s1 ≠ s2 ∧ step s1 = .next t)
      ∧ (∃ s1 s2 e, SameButWork s1 s2 ∧ s1 ≠ s2 ∧ step s1 = .fault e)
      ∧ (∃ s1 s2 e, SameButWork s1 s2 ∧ s1 ≠ s2 ∧ step s1 = .refused e) := by
  have hne : ∀ s : State, s.work = 0 → s ≠ s.setWork 1 := by
    intro s h he
    have h1 : s.work = 1 := congrArg State.work he
    omega
  refine ⟨⟨busy 0, (busy 0).setWork 1, _, rfl, hne _ rfl, rfl⟩,
    ⟨toy.setPending [.read toy.base 1], (toy.setPending [.read toy.base 1]).setWork 1,
      .busErrorSize, rfl, hne _ rfl, ?_⟩,
    ⟨toy.setPending [.read 0 4], (toy.setPending [.read 0 4]).setWork 1, .outsideWindow, rfl,
      hne _ rfl, ?_⟩⟩
  · simp [step, advance, nextEvent, State.resetOf, State.setPending, runEvent, State.hostRead, State.route, toy, State.base, Config.windowBytes]
  · simp [step, advance, nextEvent, State.resetOf, State.setPending, runEvent, State.hostRead, State.route, toy, State.base]

theorem witness_PendingCommandCompletes :
    ∃ s : State, s.safe ∧ s.status.busy = true ∧ s.pending ≠ [] := by
  refine ⟨reading (busy 0x04804C00#32) 0x008, ⟨rfl, ?_⟩, rfl, by decide⟩
  have h : (reading (busy 0x04804C00#32) 0x008).pending.all
      (reading (busy 0x04804C00#32) 0x008).accepts = true := by decide +kernel
  exact List.all_eq_true.1 h

theorem witness_DecodeOfEncode :
    Instr.wellFormed (.smul 7 0 15 true true) = true ∧ Instr.wellFormed (.modexp 15 0 15 15 .freg) = true
      ∧ Instr.wellFormed (.modinv 15 0 0 .curveN) = true := by decide

theorem witness_EncodeOfDecode : ∃ c i, decode c = .ok i := ⟨0x2BE1E800#32, _, rfl⟩

theorem witness_StepRunsTheDecodedInstruction :
    ∃ (s1 s2 : State) (i1 i2 : Instr), s1.admitted = true ∧ s1.status.busy = true ∧ decode s1.cmdlat = .ok i1 ∧ s1.pending = []
      ∧ s2.admitted = true ∧ s2.status.busy = true ∧ decode s2.cmdlat = .ok i2 ∧ s2.pending = .engine :: [.resetRelease] :=
  ⟨busy 0x25B00000#32, (busy 0x04804C00#32).setPending [.engine, .resetRelease], .pdbl 3 3,
    .montmul 2 0 1 3 .freg, rfl, rfl, rfl, rfl, rfl, rfl, rfl, rfl⟩

theorem witness_IssuedWordIsTheOneThatRuns :
    ∃ s i, HostWrites s 0x010 0x21020000#32 (.engine :: []) ∧ s.status.busy = false
      ∧ decode 0x21020000#32 = .ok i :=
  ⟨toy.setPending [.write (toy.base + 0x010) 4 0x21020000#32, .engine], .padd 2 0 1,
    ⟨rfl, rfl, rfl⟩, rfl, rfl⟩

theorem witness_IdleEngineDoesNothing :
    toy.admitted = true ∧ toy.status.busy = false ∧ toy.pending = []
      ∧ (toy.setPending [.engine, .engine]).pending = .engine :: [.engine] :=
  ⟨rfl, rfl, rfl, rfl⟩

theorem witness_CommandWriteIsAccepted :
    ∃ s, HostWrites s 0x010 0x14000000#32 [] ∧ s.status.busy = false :=
  ⟨writing toy 0x010 0x14000000#32, ⟨rfl, rfl, rfl⟩, rfl⟩

theorem witness_CommandWriteWhileBusyIsDropped :
    ∃ s, HostWrites s 0x010 0x00000000#32 [] ∧ s.status.busy = true :=
  ⟨writing (busy 0x04804C00#32) 0x010 0, ⟨rfl, rfl, rfl⟩, rfl⟩

/-- One word for each item of R99, with the engine's turn next in either form. -/
theorem witness_IllegalWordsReportIllegalOp :
    (∀ c, (busy c).status.busy = true ∧ (busy c).cmdlat = c ∧ EngineIsNext (busy c) []
        ∧ EngineIsNext ((busy c).setPending [.engine, .resetAssert]) [.resetAssert])
      ∧ bits 0x14000000#32 31 26 ∉ [0x00, 0x01, 0x02, 0x03, 0x04, 0x08, 0x09, 0x0A]
      ∧ (bits 0x02000000#32 31 26 = 0x00 ∧ bits 0x02000000#32 25 0 ≠ 0)
      ∧ (bits 0x04000080#32 31 26 = 0x01 ∧ bits 0x04000080#32 7 0 ≠ 0)
      ∧ (bits 0x28000400#32 31 26 = 0x0A ∧ bits 0x28000400#32 10 0 ≠ 0)
      ∧ (bits 0x10000300#32 31 26 = 0x04 ∧ bits 0x10000300#32 9 8 = 3)
      ∧ (bits 0x0C002200#32 31 26 = 0x03 ∧ bits 0x0C002200#32 9 8 ≠ 0
          ∧ bits 0x0C002200#32 13 10 ≠ 0)
      ∧ (bits 0x10020000#32 31 26 = 0x04 ∧ bits 0x10020000#32 17 14 ≠ 0)
      ∧ (bits 0x20010000#32 31 26 = 0x08 ∧ bits 0x20010000#32 16 11 ≠ 0)
      ∧ (bits 0x24080000#32 31 26 = 0x09 ∧ bits 0x24080000#32 19 11 ≠ 0)
      ∧ (bits 0x28080000#32 31 26 = 0x0A ∧ bits 0x28080000#32 19 17 ≠ 0)
      ∧ (bits 0x28401000#32 31 26 = 0x0A ∧ bits 0x28401000#32 12 12 = 1
          ∧ bits 0x28401000#32 22 20 ≠ 0) :=
  ⟨fun _ => ⟨rfl, rfl, ⟨.inr ⟨rfl, rfl⟩, rfl⟩, ⟨.inl rfl, rfl⟩⟩, by decide⟩

theorem witness_NopCompletes :
    ∃ s : State, EngineIsNext s [.engine] ∧ s.status.busy = true ∧ s.cmdlat ≠ 0
      ∧ bits s.cmdlat 31 26 = 0 :=
  ⟨(busy 0x00000001#32).setPending [.engine, .engine], ⟨.inl rfl, rfl⟩, rfl, by decide, by decide⟩

/-- A `CURVE` that is not well formed. -/
def badCurve : Curve := ⟨0, 0, 0, 0, 0, 0⟩

/-- The smallest odd modulus with any `CURVE`, the prime and the order of a well-formed one. -/
theorem witness_MontmulResult_ModexpResult :
    ((loaded [(3, 1)] []).modulus 3 .freg % 2 = 1)
      ∧ (((State.resetOf badCurve 0 false).setF 0 19).modulus 0 .freg % 2 = 1)
      ∧ (curveWellFormed toy.curve ∧ toy.modulus 0 .curveP % 2 = 1)
      ∧ (curveWellFormed toy.curve ∧ toy.modulus 0 .curveN % 2 = 1) :=
  ⟨by decide +kernel, by decide +kernel, ⟨toyCurve_wellFormed, by decide⟩,
    ⟨toyCurve_wellFormed, by decide⟩⟩

theorem witness_BarrettResult :
    1 ≤ (loaded [(3, 1)] []).modulus 3 .freg
      ∧ (curveWellFormed toy.curve ∧ 1 ≤ toy.modulus 0 .curveP ∧ 1 ≤ toy.modulus 0 .curveN) :=
  ⟨by decide +kernel, toyCurve_wellFormed, by decide, by decide⟩

/-- The modulus 1, and a value coprime to the curve's prime. -/
theorem witness_ModinvResult :
    (1 ≤ (loaded [(3, 1)] []).modulus 3 .freg
        ∧ Nat.gcd ((loaded [(3, 1)] []).natF 0 % (loaded [(3, 1)] []).modulus 3 .freg)
            ((loaded [(3, 1)] []).modulus 3 .freg) = 1)
      ∧ (curveWellFormed (loaded [(1, 5)] []).curve ∧ 1 ≤ (loaded [(1, 5)] []).modulus 0 .curveP
        ∧ Nat.gcd ((loaded [(1, 5)] []).natF 1 % (loaded [(1, 5)] []).modulus 0 .curveP)
            ((loaded [(1, 5)] []).modulus 0 .curveP) = 1) :=
  ⟨by decide +kernel, toyCurve_wellFormed, by decide +kernel, by decide +kernel⟩

theorem witness_InvalidModulusExactlyWhen :
    curveWellFormed toy.curve ∧ ModSel.curveP = .curveP ∧ ModSel.curveN = .curveN :=
  ⟨toyCurve_wellFormed, rfl, rfl⟩

/-- The modulus 0, and a value not coprime to its modulus. -/
theorem witness_ModinvErrors :
    toy.modulus 3 .freg = 0
      ∧ ((loaded [(1, 6), (3, 9)] []).modulus 3 .freg ≠ 0
        ∧ Nat.gcd ((loaded [(1, 6), (3, 9)] []).natF 1 % (loaded [(1, 6), (3, 9)] []).modulus 3 .freg)
            ((loaded [(1, 6), (3, 9)] []).modulus 3 .freg) ≠ 1)
      ∧ (curveWellFormed toy.curve ∧ toy.modulus 0 .curveP ≠ 0
        ∧ Nat.gcd (toy.natF 0 % toy.modulus 0 .curveP) (toy.modulus 0 .curveP) ≠ 1) :=
  ⟨by decide +kernel, by decide +kernel, toyCurve_wellFormed, by decide +kernel, by decide +kernel⟩

theorem witness_MontgomeryDomain : 1 < 3 ∧ 3 % 2 = 1 ∧ 1 < 19 ∧ 19 % 2 = 1 := by decide

theorem witness_FermatInverse :
    (Nat.Prime 2 ∧ 2 < 2 ^ 256 ∧ 1 % 2 ≠ 0) ∧ (Nat.Prime 3 ∧ 3 < 2 ^ 256 ∧ 3 % 3 = 0 ∧ 3 ≠ 2) :=
  ⟨⟨by decide, by decide, by decide⟩, by decide, by decide, by decide, by decide⟩

theorem witness_ModinvByCurvePrime :
    curveWellFormed (loaded [(1, 5)] []).curve
      ∧ Nat.Coprime ((loaded [(1, 5)] []).natF 1) (loaded [(1, 5)] []).curve.p.toNat :=
  ⟨toyCurve_wellFormed, by decide +kernel⟩

/-- The three cases of the rule: the identity, a vertical tangent, and a point with a tangent; the last
has a coordinate `p - 1`. -/
theorem witness_PdblResult :
    curveWellFormed toy.curve
      ∧ (toy.readP 0 = .identity ∧ toy.inRange (toy.readP 0) = true)
      ∧ ((loaded [] [(3, .affine 3 0)]).readP 3 = .affine 3 0
        ∧ (loaded [] [(3, .affine 3 0)]).inRange (.affine 3 0) = true)
      ∧ ((loaded [] [(3, .affine 5 16)]).readP 3 = .affine 5 16 ∧ 16 ≠ 0
        ∧ (loaded [] [(3, .affine 5 16)]).inRange (.affine 5 16) = true) :=
  ⟨toyCurve_wellFormed, by decide +kernel, by decide +kernel, by decide +kernel⟩

/-- The cases of the rule: an identity on each side, equal points, inverse points, a chord. -/
theorem witness_PaddResult :
    ∃ s : State, curveWellFormed s.curve ∧ (∀ i, s.inRange (s.readP i) = true)
      ∧ s.readP 0 = .identity ∧ s.readP 1 = .affine 5 1 ∧ s.readP 2 = .affine 5 1
      ∧ s.readP 3 = .affine 5 16 ∧ s.readP 4 = .affine 6 3 ∧ 1 ≠ 16 ∧ 5 ≠ 6
      ∧ ∃ d, exec (.pdbl 7 1) s = .next d := by
  obtain ⟨d, hd, -⟩ := exists_next (fun _ => true)
    (show (nextOf (exec (.pdbl 7 1) (loaded [] [(1, .affine 5 1), (2, .affine 5 1),
      (3, .affine 5 16), (4, .affine 6 3)]))).any (fun _ => true) = true by decide +kernel)
  exact ⟨_, toyCurve_wellFormed, by decide +kernel, by decide +kernel, by decide +kernel,
    by decide +kernel, by decide +kernel, by decide +kernel, by decide, by decide, d, hd⟩

/-- The smallest and the largest scalar the check lets through, with the base point and with a register. -/
theorem witness_SmulResult :
    ∃ s : State, curveWellFormed s.curve ∧ (1 ≤ s.natF 1 ∧ s.natF 1 = 1 ∧ s.natF 1 < s.curve.n.toNat)
      ∧ (1 ≤ s.natF 2 ∧ s.natF 2 + 1 = s.curve.n.toNat) ∧ s.inRange (s.readP 1) = true :=
  ⟨loaded [(1, 1), (2, 18)] [(1, .affine 16 4)], toyCurve_wellFormed, by decide +kernel,
    by decide +kernel, by decide +kernel⟩

theorem witness_SmulRunsOverTheBits : 0 < 2 ^ 256 ∧ 2 ^ 256 - 1 < 2 ^ 256 := by decide

/-- Scalars 0 and `n` for the check, and a point out of range with a scalar that passes. -/
theorem witness_SmulErrors :
    ∃ s : State, curveWellFormed s.curve ∧ s.natF 0 = 0 ∧ s.curve.n.toNat ≤ s.natF 1
      ∧ s.natF 1 = s.curve.n.toNat ∧ (1 ≤ s.natF 2 ∧ s.natF 2 < s.curve.n.toNat)
      ∧ s.inRange (s.readP 1) = false :=
  ⟨loaded [(1, 19), (2, 18)] [(1, .affine 17 0)], toyCurve_wellFormed, by decide +kernel,
    by decide +kernel, by decide +kernel, by decide +kernel, by decide +kernel⟩

/-- The coordinate `p` in `x`, the coordinate `p` in `y`, and an identity. -/
theorem witness_PointRangeErrors :
    ∃ s : State, curveWellFormed s.curve
      ∧ ((s.readPReg 1).inf = false ∧ s.curve.p ≤ (s.readPReg 1).x)
      ∧ ((s.readPReg 2).inf = false ∧ s.curve.p ≤ (s.readPReg 2).y)
      ∧ (s.readPReg 3).inf = true :=
  ⟨loaded [] [(1, .affine 17 0), (2, .affine 0 17)], toyCurve_wellFormed, by decide +kernel,
    by decide +kernel, by decide +kernel⟩

theorem witness_PointResultsAreCanonical :
    ∃ i s t, curveWellFormed s.curve ∧ destPoint i = some 3 ∧ exec i s = .next t
      ∧ t.status.errcode = none := by
  obtain ⟨t, h, he⟩ := exists_next (fun t => t.status.errcode == none)
    (show (nextOf (exec (.pdbl 3 3) (loaded [] [(3, .affine 5 1)]))).any
      (fun t => t.status.errcode == none) = true by decide +kernel)
  exact ⟨_, _, t, toyCurve_wellFormed, rfl, h, by simpa using he⟩

theorem witness_CurvePointsFormAGroup :
    curveWellFormed toyCurve ∧ Point.onCurve toyCurve .identity = true
      ∧ Point.onCurve toyCurve (.affine 5 1) = true ∧ Point.onCurve toyCurve (.affine 5 16) = true
      ∧ Point.onCurve toyCurve (.affine 6 3) = true :=
  ⟨toyCurve_wellFormed, by decide, by decide, by decide, by decide⟩

theorem witness_SmulIsRepeatedAddition :
    curveWellFormed toyCurve ∧ 2 ^ 256 - 1 < 2 ^ 256 ∧ Point.onCurve toyCurve (.affine 6 3) = true :=
  ⟨toyCurve_wellFormed, by decide, by decide⟩

/-- Scalars 0 and 1, a sum past the order, and a scalar with its remainder. -/
theorem witness_SmulOfBasePoint :
    ∃ s : State, curveWellFormed s.curve ∧ s.natF 0 = 0 ∧ s.natF 1 = 1
      ∧ s.natF 4 = s.natF 2 + s.natF 3 ∧ s.curve.n.toNat < s.natF 4
      ∧ s.natF 5 = s.natF 4 % s.curve.n.toNat :=
  ⟨loaded [(1, 1), (2, 12), (3, 18), (4, 30), (5, 11)] [], toyCurve_wellFormed, by decide +kernel⟩

/-- A field command, a point command and one with no destination. -/
theorem witness_CommandWritesOnlyItsDestination :
    (∃ t, exec (.montmul 2 0 1 3 .freg) (loaded [(3, 19)] []) = .next t)
      ∧ (∃ t, exec (.padd 2 0 1) toy = .next t) ∧ (∃ t, exec .nop toy = .next t)
      ∧ destField (.montmul 2 0 1 3 .freg) ≠ some 15 ∧ destPoint (.padd 2 0 1) ≠ some 7 :=
  ⟨⟨_, rfl⟩, ⟨_, rfl⟩, ⟨_, rfl⟩, by decide, by decide⟩

theorem witness_WindowFrameOfCommands :
    (∃ t, exec (.padd 2 0 1) toy = .next t) ∧ mayChange (.padd 2 0 1) (.px 1 7) = false
      ∧ mayChange (.padd 2 0 1) .ie = false ∧ destPoint (.padd 2 0 1) ≠ some 1 :=
  ⟨⟨_, rfl⟩, by decide, by decide, by decide⟩

theorem witness_ErrorIsPrecise :
    ∃ s t, s.status.busy = true ∧ engineTurn s = .next t ∧ t.status.errcode = some .illegalOp
      ∧ s.ie.errIE = true :=
  ⟨(busy 0x14000000#32).setIE ⟨false, true, false⟩, _, rfl, rfl, rfl, rfl⟩

theorem witness_ErrorCodesByCommand :
    ∃ i s t, exec i s = .next t ∧ t.status.errcode = some .invalidModulus :=
  ⟨.barrett 0 0 0 0 .freg, toy, _, rfl, rfl⟩

theorem witness_MalformedCurveIsRefused :
    ∃ s : State, s.admitted = false ∧ s.pending = [] ∧ s = State.instantiate badCurve 0 :=
  ⟨State.instantiate badCurve 0, by decide, rfl, rfl⟩

/-- The edges of the map: the offsets beside and inside the two reserved ranges, and the addresses just
outside the window. -/
theorem witness_AddressMap :
    locate 0x014 = some .pinf ∧ locate 0x018 = none ∧ locate 0x0FC = none
      ∧ locate 0x100 = some (.f 0 0) ∧ locate 0x2FC = some (.f 15 7) ∧ locate 0x300 = some (.px 0 0)
      ∧ locate 0x320 = some (.py 0 0) ∧ locate 0x4FC = some (.py 7 7)
      ∧ locate 0x500 = some (.curve .p 0) ∧ locate 0x5BC = some (.curve .gy 7)
      ∧ locate 0x5C0 = none ∧ locate 0xFFC = none
      ∧ toy.base - 1 < toy.base ∧ toy.base + 0x1000 ≤ toy.base + 0x1000 := by decide +kernel

theorem witness_ReadsAreSilentWritesIdempotent :
    HostReads (reading toy 0x5BC) (WindowReg.offset (.curve .gy 7)) []
      ∧ WindowReg.f 15 7 ≠ .cmd ∧ WindowReg.f 15 7 ≠ .status ∧ WindowReg.f 15 7 ≠ .ctrl :=
  ⟨⟨rfl, rfl⟩, by decide, by decide, by decide⟩

theorem witness_UnalignedOrOddSizedAccessFaults :
    toy.admitted = true ∧ (0x000 < 0x1000 ∧ 0xFFF < 0x1000 ∧ 1 ≠ 4 ∧ 8 ≠ 4 ∧ 0xFFF % 4 ≠ 0 ∧ 0x002 % 4 ≠ 0)
      ∧ (toy.setPending [.read (toy.base + 0xFFF) 4]).pending
          = .read ((toy.setPending [.read (toy.base + 0xFFF) 4]).base + 0xFFF) 4 :: []
      ∧ (toy.setPending [.write (toy.base + 0x100) 1 0]).pending
          = .write ((toy.setPending [.write (toy.base + 0x100) 1 0]).base + 0x100) 1 0 :: [] :=
  ⟨rfl, by decide, rfl, rfl⟩

theorem witness_ReservedOffsetFaults :
    (0x018 % 4 = 0 ∧ 0x0FC % 4 = 0 ∧ 0x0FC ≤ 0x0FF ∧ 0x5C0 % 4 = 0 ∧ 0xFFC % 4 = 0 ∧ 0xFFC ≤ 0xFFF)
      ∧ HostReads (reading toy 0x018) 0x018 [] ∧ HostReads (reading toy 0x0FC) 0x0FC []
      ∧ HostWrites (writing toy 0x5C0 0) 0x5C0 0 [] ∧ HostWrites (writing toy 0xFFC 0) 0xFFC 0 [] :=
  ⟨by decide, ⟨rfl, rfl⟩, ⟨rfl, rfl⟩, ⟨rfl, rfl, rfl⟩, ⟨rfl, rfl, rfl⟩⟩

theorem witness_RegisterWordAccess :
    toy.status.busy = false
      ∧ HostWrites (writing toy 0x100 5#32) (WindowReg.offset (.f 0 0)) 5#32 []
      ∧ HostWrites (writing toy 0x2FC 5#32) (WindowReg.offset (.f 15 7)) 5#32 []
      ∧ HostWrites (writing toy 0x300 5#32) (WindowReg.offset (.px 0 0)) 5#32 []
      ∧ HostWrites (writing toy 0x4FC 5#32) (WindowReg.offset (.py 7 7)) 5#32 [] :=
  ⟨rfl, ⟨rfl, rfl, rfl⟩, ⟨rfl, rfl, rfl⟩, ⟨rfl, rfl, rfl⟩, ⟨rfl, rfl, rfl⟩⟩

theorem witness_SerializedBytesInTheWindow :
    (7 = 7 - 0 / 4 ∧ 3 = 3 - 0 % 4) ∧ (0 = 7 - 31 / 4 ∧ 0 = 3 - 31 % 4) := by decide

theorem witness_OperandWriteWhileBusyIsDropped :
    (busy 0).status.busy = true
      ∧ HostWrites (writing (busy 0) 0x014 0) (WindowReg.offset .pinf) 0 []
      ∧ HostWrites (writing (busy 0) 0x2FC 0) (WindowReg.offset (.f 15 7)) 0 []
      ∧ HostWrites (writing (busy 0) 0x300 0) (WindowReg.offset (.px 0 0)) 0 []
      ∧ HostWrites (writing (busy 0) 0x4FC 0) (WindowReg.offset (.py 7 7)) 0 []
      ∧ HostWrites (writing (busy 0) 0x000 0) (WindowReg.offset .id) 0 []
      ∧ HostWrites (writing (busy 0) 0x5BC 0) (WindowReg.offset (.curve .gy 7)) 0 [] :=
  ⟨rfl, ⟨rfl, rfl, rfl⟩, ⟨rfl, rfl, rfl⟩, ⟨rfl, rfl, rfl⟩, ⟨rfl, rfl, rfl⟩,
    ⟨rfl, rfl, rfl⟩, ⟨rfl, rfl, rfl⟩⟩

theorem witness_ReadOnlyWritesAreIgnored :
    HostWrites (writing toy 0x000 0) (WindowReg.offset .id) 0 []
      ∧ HostWrites (writing toy 0x500 1#32) (WindowReg.offset (.curve .p 0)) 1#32 [] :=
  ⟨⟨rfl, rfl, rfl⟩, ⟨rfl, rfl, rfl⟩⟩

theorem witness_PinfReadAndWrite :
    (toy.status.busy = false ∧ HostWrites (writing toy 0x014 0xFFFFFF00#32) 0x014 0xFFFFFF00#32 [])
      ∧ ((busy 0).status.busy = true ∧ HostWrites (writing (busy 0) 0x014 0) 0x014 0 []) :=
  ⟨⟨rfl, ⟨rfl, rfl, rfl⟩⟩, rfl, ⟨rfl, rfl, rfl⟩⟩

theorem witness_StatusWriteClearsOnes :
    HostWrites (writing (busy 0) 0x008 0x0000001A#32) 0x008 0x0000001A#32 [] :=
  ⟨rfl, rfl, rfl⟩

theorem witness_InterruptEnableWrite :
    HostWrites (writing (busy 0) 0x00C 0xFFFFFFFF#32) 0x00C 0xFFFFFFFF#32 [] :=
  ⟨rfl, rfl, rfl⟩

end Sys2Proof.Tests
end

/-! ### Scope: which instances are admitted (00_scope.md) -/

namespace Sys2Proof.Proofs

open Sys2Proof.Machine

/-- R26, R41: a reset state holds the reset value in every register, whatever the instance. -/
theorem resetOf_registersAtReset (c : Curve) (b : Nat) (a : Bool) :
    (State.resetOf c b a).registersAtReset :=
  ⟨readF_resetOf c b a, readPReg_resetOf c b a, resetOf_cmdlat c b a, resetOf_status c b a,
    resetOf_ie c b a⟩

theorem instantiate_admitted_iff (c : Curve) (b : Nat) :
    (State.instantiate c b).admitted = true ↔ curveWellFormed c := by
  rw [instantiate_admitted, decide_eq_true_iff]

/-- R242: a built instance is in the reset state of its own curve and base, with reset released. -/
theorem instantiate_isReset (c : Curve) (b : Nat) :
    BlockIsReset (State.instantiate c b) (State.instantiate c b)
      ∧ (State.instantiate c b).curve = c ∧ (State.instantiate c b).basePage = b
      ∧ (State.instantiate c b).resetAsserted = false :=
  ⟨⟨resetOf_registersAtReset c b _, rfl, rfl, rfl⟩, resetOf_curve c b _, resetOf_basePage c b _,
    resetOf_resetAsserted c b _⟩

/-- Settles O47: `State.instantiate` admits by deciding the conditions of R8, `step` asks for the
admission before anything else, and the open `CURVE` is well formed by its definition. -/
theorem malformedCurveIsRefused : Obligations.MalformedCurveIsRefused :=
  ⟨instantiate_admitted_iff, instantiate_isReset, fun _ => step_not_admitted, reset_eq_instantiate,
    config_curve_wellFormed, resetOf_admitted _ _ _⟩

end Sys2Proof.Proofs

/-! The registers of the block (10_state.md): the words of STATUS, IE and PINF, host writes, what one command
and one step can change, and the state after reset. -/

namespace Sys2Proof.Proofs

open Sys2Proof.Machine

/-! ### The words of STATUS, IE and PINF (R32, R34, R37)

The type of each word gives its width as 32 and not as the sum of its fields' widths: the first rewrite of
each proof names the width above the lowest bit, and `Nat.reduceAdd` must not add the others up. -/

/-- R37: bit `i` of PINF is `P[i].inf`, and bits 31 to 8 are 0. -/
theorem getLsbD_pinfWord (p : Vector PointReg 8) (i : Nat) :
    (pinfWord p).getLsbD i = if h : i < 8 then p[i].inf else false := by
  unfold pinfWord
  rw [BitVec.getLsbD_append (n := 24 + 1 + 1 + 1 + 1 + 1 + 1 + 1)]
  simp only [BitVec.getLsbD_append, -Nat.reduceAdd]
  match i with
  | 0 | 1 | 2 | 3 | 4 | 5 | 6 | 7 => simp
  | i + 8 => simp

/-- R34: bits 0 to 2 of IE are the enable bits, and the others are 0. -/
theorem getLsbD_ieWord (e : IntEnable) (i : Nat) :
    (ieWord e).getLsbD i = (decide (i = 0) && e.doneIE || decide (i = 1) && e.errIE
      || decide (i = 2) && e.protIE) := by
  unfold ieWord
  rw [BitVec.getLsbD_append (n := 29 + 1 + 1)]
  simp only [BitVec.getLsbD_append, -Nat.reduceAdd]
  match i with
  | 0 | 1 | 2 => simp
  | i + 3 => simp

/-- R32: bits 0 to 4 of STATUS. -/
theorem getLsbD_statusWord (st : Status) :
    (statusWord st).getLsbD 0 = st.busy ∧ (statusWord st).getLsbD 1 = st.done
      ∧ (statusWord st).getLsbD 2 = st.err ∧ (statusWord st).getLsbD 3 = st.ovr
      ∧ (statusWord st).getLsbD 4 = st.wbusy := by
  unfold statusWord
  simp only [BitVec.getLsbD_append (n := 20 + 4 + 3 + 1 + 1 + 1 + 1)]
  simp only [BitVec.getLsbD_append, -Nat.reduceAdd]
  simp

/-- R32: ERRCODE stands in bits 11 to 8 of STATUS, and bits 7 to 5 and 31 to 12 are 0. -/
theorem extractLsb'_statusWord (st : Status) :
    (statusWord st).extractLsb' 5 3 = 0 ∧ (statusWord st).extractLsb' 8 4 = errCodeBits st.errcode
      ∧ (statusWord st).extractLsb' 12 20 = 0 := by
  unfold statusWord
  refine ⟨?_, ?_, ?_⟩
  all_goals
    rw [BitVec.extractLsb'_append_eq_of_le (v := 20 + 4 + 3 + 1 + 1 + 1 + 1) (by decide)]
    simp [BitVec.extractLsb'_append_eq_of_le, BitVec.extractLsb'_append_eq_of_add_le,
      -Nat.reduceAdd]

/-- R9: a field of a word is that part of the word. -/
theorem bits_eq_toNat_extractLsb' (v : Word) (hi lo : Nat) :
    bits v hi lo = (v.extractLsb' lo (hi + 1 - lo)).toNat := by
  rw [bits, BitVec.extractLsb'_toNat, Nat.shiftRight_eq_div_pow]

theorem bits_statusWord (st : Status) :
    bits (statusWord st) 7 5 = 0 ∧ bits (statusWord st) 11 8 = (errCodeBits st.errcode).toNat
      ∧ bits (statusWord st) 31 12 = 0 := by
  obtain ⟨h5, h8, h12⟩ := extractLsb'_statusWord st
  simp [bits_eq_toNat_extractLsb', h5, h8, h12, -BitVec.extractLsb'_toNat]

/-- Settles O57: bit by bit, and by the five codes. -/
theorem statusLayout : Obligations.StatusLayout := by
  intro s
  obtain ⟨hbusy, hdone, herr, hovr, hwbusy⟩ := getLsbD_statusWord s.status
  obtain ⟨h5, h8, h12⟩ := bits_statusWord s.status
  refine ⟨hbusy, hdone, herr, hovr, hwbusy, h5, ?_, ?_, ?_, ?_, ?_, ?_, h12⟩
  all_goals
    intro h
    rw [State.readReg, h8, h]
    rfl

/-- R34: IE reads back what was written, its reserved bits as 0. -/
theorem ieWord_ieOfWord (v : Word) : ieWord (ieOfWord v) = v &&& 0x7#32 := by
  refine BitVec.eq_of_getLsbD_eq fun i hi => ?_
  have mask : (0x7#32).getLsbD i = decide (i < 3) := by revert i; decide
  rw [getLsbD_ieWord, BitVec.getLsbD_and, mask]
  match i with
  | 0 | 1 | 2 => simp [ieOfWord]
  | i + 3 => simp

/-- Settles O60: IRQ is a function of STATUS and IE, whose words show every bit of it. -/
theorem interruptOutput : Obligations.InterruptOutput := by
  refine ⟨fun s => ?_, rfl⟩
  obtain ⟨-, hdone, herr, hovr, hwbusy⟩ := getLsbD_statusWord s.status
  simp only [State.readReg, hdone, herr, hovr, hwbusy, getLsbD_ieWord]
  simp [State.irq]

/-! ### PINF and the point registers (R37) -/

theorem getLsbD_readReg_pinf (s : State) (i : Nat) :
    (s.readReg .pinf).getLsbD i = if h : i < 8 then (s.readPReg ⟨i, h⟩).inf else false :=
  getLsbD_pinfWord s.p i

/-- R37: a write to PINF sets every `inf` bit and no coordinate. -/
theorem readPReg_setP_setPinf (s : State) (v : Word) (i : PReg) :
    (s.setP (setPinf s.p v)).readPReg i = { s.readPReg i with inf := v.getLsbD i.val } := by
  simp [State.readPReg, setPinf]

/-- R37: PINF reads back what was written, its bits 31 to 8 as 0. -/
theorem pinfWord_setPinf (p : Vector PointReg 8) (v : Word) :
    pinfWord (setPinf p v) = v &&& 0xFF#32 := by
  refine BitVec.eq_of_getLsbD_eq fun i hi => ?_
  have mask : (0xFF#32).getLsbD i = decide (i < 8) := by revert i; decide
  rw [getLsbD_pinfWord, BitVec.getLsbD_and, mask]
  by_cases h : i < 8 <;> simp [h, setPinf]

/-! ### The branches of a step and of the engine's turn -/

theorem step_of_pending_nil {s : State} (ha : s.admitted = true) (hp : s.pending = []) :
    step s = engineTurn s := by
  rw [step_admitted ha, nextEvent, hp]

theorem step_of_pending_cons {s : State} {e : Event} {rest : List Event}
    (ha : s.admitted = true) (hp : s.pending = e :: rest) :
    step s = runEvent e (s.setPending rest) := by
  rw [step_admitted ha, nextEvent, hp]

theorem engineTurn_legal {s : State} {i : Instr} (hb : s.status.busy = true)
    (hd : decode s.cmdlat = .ok i) : engineTurn s = exec i s := by
  simp only [engineTurn, hb, if_true, hd]

theorem engineTurn_illegal {s : State} {e : IllegalWord} (hb : s.status.busy = true)
    (hd : decode s.cmdlat = .error e) : engineTurn s = .next (s.raise .illegalOp) := by
  simp only [engineTurn, hb, if_true, hd]

/-! ### Accesses of the host that land on a location (R61, R66) -/

theorem offset_lt (r : WindowReg) : r.offset < 0x1000 := by
  cases r with
  | curve c j => cases c <;> simp only [WindowReg.offset, CurveReg.index] <;> omega
  | _ => simp only [WindowReg.offset]; omega

theorem offset_mod_four (r : WindowReg) : r.offset % 4 = 0 := by
  cases r <;> simp only [WindowReg.offset] <;> omega

/-- R62: word `j` of the 32-byte register at `off`. -/
theorem wordIndex_add (off : Nat) (h : off % 32 = 0) (j : Fin 8) :
    wordIndex (off + 4 * j.val) = j := by
  simp only [wordIndex, Fin.ext_iff]
  omega

theorem ofIndex_index (r : CurveReg) : CurveReg.ofIndex r.index = some r := by
  cases r <;> rfl

theorem index_lt (r : CurveReg) : r.index < 6 := by
  cases r <;> decide

theorem locate_f (i : FReg) (j : Fin 8) :
    locate (0x100 + 0x20 * i.val + 4 * j.val) = some (.f i j) := by
  unfold locate
  rw [if_neg (by omega), if_neg (by omega), if_pos (by omega), wordIndex_add _ (by omega)]
  congr
  omega

theorem locate_px (i : PReg) (j : Fin 8) :
    locate (0x300 + 0x40 * i.val + 4 * j.val) = some (.px i j) := by
  unfold locate
  rw [if_neg (by omega), if_neg (by omega), if_neg (by omega), if_pos (by omega), if_pos (by omega),
    wordIndex_add _ (by omega)]
  congr
  omega

theorem locate_py (i : PReg) (j : Fin 8) :
    locate (0x320 + 0x40 * i.val + 4 * j.val) = some (.py i j) := by
  unfold locate
  rw [if_neg (by omega), if_neg (by omega), if_neg (by omega), if_pos (by omega), if_neg (by omega),
    wordIndex_add _ (by omega)]
  congr
  omega

theorem locate_curve (r : CurveReg) (j : Fin 8) :
    locate (0x500 + 0x20 * r.index + 4 * j.val) = some (.curve r j) := by
  have h := index_lt r
  unfold locate
  rw [if_neg (by omega), if_neg (by omega), if_neg (by omega), if_neg (by omega),
    wordIndex_add _ (by omega),
    show (0x500 + 0x20 * r.index + 4 * j.val - 0x500) / 0x20 = r.index by omega, ofIndex_index]
  rfl

/-- R66: every location is found at its own offset. -/
theorem locate_offset (r : WindowReg) : locate r.offset = some r := by
  cases r with
  | f i j => exact locate_f i j
  | px i j => exact locate_px i j
  | py i j => exact locate_py i j
  | curve r j => exact locate_curve r j
  | _ => rfl

/-- R61, R65, R66: an aligned 4-byte access to a location's address lands on it. -/
theorem route_offset (s : State) (r : WindowReg) : s.route (s.base + r.offset) 4 = .location r := by
  have hlt := offset_lt r
  unfold State.route
  rw [if_neg (by simp only [Config.windowBytes]; omega), if_neg (by simp), Nat.add_sub_cancel_left,
    if_neg (by simp [offset_mod_four]), locate_offset]

/-- A host write to a location, out of reset: the location takes the value (R61). -/
theorem step_hostWrites {s : State} {r : WindowReg} {v : Word} {rest : List Event}
    (h : HostWrites s r.offset v rest) :
    step s = .next (((s.setPending rest).writeReg r v).setRdata none) := by
  obtain ⟨hp, hadm, hreset⟩ := h
  rw [step_of_pending_cons hadm hp]
  change (s.setPending rest).hostWrite ((s.setPending rest).base + r.offset) 4 v = _
  rw [State.hostWrite, route_offset]
  simp [hreset]

/-! ### What a write to a location does, while idle and while busy (R190, R250) -/

theorem writeOperand_idle {s : State} (h : s.status.busy = false) (s' : State) :
    s.writeOperand s' = s' := by
  simp [State.writeOperand, h]

theorem writeOperand_busy {s : State} (h : s.status.busy = true) (s' : State) :
    s.writeOperand s' = s.setStatus { s.status with wbusy := true } := by
  simp [State.writeOperand, h]

theorem issue_idle {s : State} (h : s.status.busy = false) (c : Word) :
    s.issue c = s.accept c := by
  simp [State.issue, h]

theorem issue_busy {s : State} (h : s.status.busy = true) (c : Word) :
    s.issue c = s.setStatus { s.status with ovr := true } := by
  simp [State.issue, h]

/-! ### The host's writes to the control registers and PINF (R28, R33, R34, R37) -/

/-- Settles O55: both locations ignore the value. -/
theorem readOnlyWritesAreIgnored : Obligations.ReadOnlyWritesAreIgnored := by
  intro s r v rest hr h
  obtain rfl | ⟨cr, j, rfl⟩ := hr
  · exact step_hostWrites h
  · exact step_hostWrites h

/-- Settles O58: STATUS takes `statusClear`, whatever BUSY is. -/
theorem statusWriteClearsOnes : Obligations.StatusWriteClearsOnes :=
  fun _ _ _ h => step_hostWrites (r := .status) h

/-- Settles O59: IE takes `ieOfWord`, whatever BUSY is. -/
theorem interruptEnableWrite : Obligations.InterruptEnableWrite :=
  fun _ v _ h => ⟨_, step_hostWrites (r := .ie) h, rfl, ieWord_ieOfWord v⟩

/-- Settles O56: PINF bit by bit, and the operand write to it while idle and while busy. -/
theorem pinfReadAndWrite : Obligations.PinfReadAndWrite := by
  refine ⟨getLsbD_readReg_pinf, fun s v rest hidle h => ?_, fun s v rest hbusy h => ?_⟩
  · refine ⟨_, step_hostWrites (r := .pinf) h, ?_⟩
    rw [State.writeReg, writeOperand_idle (s := s.setPending rest) hidle]
    exact ⟨rfl, pinfWord_setPinf s.p v, readPReg_setP_setPinf s v⟩
  · rw [step_hostWrites (r := .pinf) h, State.writeReg,
      writeOperand_busy (s := s.setPending rest) hbusy]
    rfl

/-! ### What a host write to a location can do (R28, R31 to R37, R190, R194, R250, R251) -/

/-- Everything a host write to a location can do. -/
inductive WriteResult (s : State) : State → Prop
  /-- nothing: ID, a curve register, or CTRL with bit 0 clear (R28, R35, R36) -/
  | ignored : WriteResult s s
  /-- a soft reset (R194) -/
  | reset : WriteResult s s.blockReset
  /-- STATUS bits cleared (R33) -/
  | statusBits (v : Word) : WriteResult s (s.setStatus (statusClear s.status v))
  /-- IE written (R34) -/
  | intEnable (e : IntEnable) : WriteResult s (s.setIE e)
  /-- a command accepted while idle (R191) -/
  | accepted (c : Word) (h : s.status.busy = false) : WriteResult s (s.accept c)
  /-- a command dropped while busy (R251) -/
  | commandDropped (h : s.status.busy = true) :
      WriteResult s (s.setStatus { s.status with ovr := true })
  /-- a field register written while idle (R62) -/
  | field (i : FReg) (x : U256) (h : s.status.busy = false) : WriteResult s (s.setF i x)
  /-- a coordinate or PINF written while idle (R37, R62) -/
  | points (p : Vector PointReg 8) (h : s.status.busy = false) : WriteResult s (s.setP p)
  /-- an operand dropped while busy (R250) -/
  | operandDropped (h : s.status.busy = true) :
      WriteResult s (s.setStatus { s.status with wbusy := true })

theorem writeResult_issue (s : State) (c : Word) : WriteResult s (s.issue c) := by
  cases hb : s.status.busy
  · rw [issue_idle hb]
    exact .accepted c hb
  · rw [issue_busy hb]
    exact .commandDropped hb

theorem writeResult_writeOperand {s s' : State}
    (h : s.status.busy = false → WriteResult s s') : WriteResult s (s.writeOperand s') := by
  cases hb : s.status.busy
  · rw [writeOperand_idle hb]
    exact h hb
  · rw [writeOperand_busy hb]
    exact .operandDropped hb

theorem writeReg_ctrl (s : State) (v : Word) :
    s.writeReg .ctrl v = if v.getLsbD 0 then s.blockReset else s := rfl

theorem writeResult_writeReg (s : State) (r : WindowReg) (v : Word) :
    WriteResult s (s.writeReg r v) := by
  cases r with
  | id => exact .ignored
  | ctrl =>
    rw [writeReg_ctrl]
    split
    · exact .reset
    · exact .ignored
  | status => exact .statusBits v
  | ie => exact .intEnable _
  | cmd => exact writeResult_issue s v
  | pinf => exact writeResult_writeOperand (.points _)
  | f i j => exact writeResult_writeOperand (.field i _)
  | px i j => exact writeResult_writeOperand (.points _)
  | py i j => exact writeResult_writeOperand (.points _)
  | curve c j => exact .ignored

/-! ### What one command can do (R69, R150, R192) -/

/-- What a command of the form `i` may write when it succeeds in `s`: NOP nothing, a field command a value
to its destination, a point command a point to its destination, and on a well-formed `CURVE` one that
is in range (R92, R93, R150). -/
def MayWrite (i : Instr) (s : State) : Effect → Prop
  | .nothing => i = .nop
  | .field rd _ => destField i = some rd
  | .point pd q => destPoint i = some pd ∧ (curveWellFormed s.curve → s.inRange q = true)

/-- A result behind a check that raises `c` succeeds only past the check. -/
theorem ok_of_raising_check {P : Prop} [Decidable P] {c : ErrCode} {r : Result} {e : Effect}
    (h : (if P then .error c else r) = Except.ok e) : r = .ok e := by
  split at h
  · cases h
  · exact h

theorem montmulResult_ok {rd : FReg} {a b m : Nat} {e : Effect}
    (h : montmulResult rd a b m = .ok e) : ∃ v, e = .field rd v :=
  ⟨_, (Except.ok.inj (ok_of_raising_check h)).symm⟩

theorem barrettResult_ok {rd : FReg} {hi lo m : Nat} {e : Effect}
    (h : barrettResult rd hi lo m = .ok e) : ∃ v, e = .field rd v :=
  ⟨_, (Except.ok.inj (ok_of_raising_check h)).symm⟩

theorem modexpResult_ok {rd : FReg} {g x m : Nat} {e : Effect}
    (h : modexpResult rd g x m = .ok e) : ∃ v, e = .field rd v :=
  ⟨_, (Except.ok.inj (ok_of_raising_check h)).symm⟩

theorem modinvResult_ok {rd : FReg} {a m : Nat} {e : Effect}
    (h : modinvResult rd a m = .ok e) : ∃ v, e = .field rd v :=
  ⟨_, (Except.ok.inj (ok_of_raising_check (ok_of_raising_check h))).symm⟩

/-- A point command that succeeds has passed its range check (R150, R205). -/
theorem ok_of_range_check {b : Bool} {pd : PReg} {q : Point} {e : Effect}
    (h : (if b then .ok (.point pd q) else .error .operandRange : Result) = .ok e) :
    b = true ∧ e = .point pd q := by
  split at h
  next hb => exact ⟨hb, (Except.ok.inj h).symm⟩
  next => cases h

theorem p_pos_of_curveWellFormed {c : Curve} (h : curveWellFormed c) : 0 < c.p.toNat := h.1.pos

/-- R151: every double is in range. -/
theorem pdblResult_ok {s : State} {pd : PReg} {q : Point} {e : Effect}
    (h : pdblResult s pd q = .ok e) :
    ∃ q', e = .point pd q' ∧ (curveWellFormed s.curve → s.inRange q' = true) := by
  obtain ⟨-, rfl⟩ := ok_of_range_check h
  exact ⟨_, rfl, fun hc => dbl_inRange _ (p_pos_of_curveWellFormed hc) q⟩

/-- R152: both sources have been checked, so that their sum is in range. -/
theorem paddResult_ok {s : State} {pd : PReg} {q1 q2 : Point} {e : Effect}
    (h : paddResult s pd q1 q2 = .ok e) :
    ∃ q', e = .point pd q' ∧ (curveWellFormed s.curve → s.inRange q' = true) := by
  obtain ⟨hq, rfl⟩ := ok_of_range_check h
  obtain ⟨h1, h2⟩ := Bool.and_eq_true_iff.1 hq
  exact ⟨_, rfl, fun hc => add_inRange _ (p_pos_of_curveWellFormed hc) h1 h2⟩

/-- R171: the point has been checked, so that the product is in range. -/
theorem smulResult_ok {s : State} {pd : PReg} {chk : Bool} {k : Nat} {q : Point} {e : Effect}
    (h : smulResult s pd chk k q = .ok e) :
    ∃ q', e = .point pd q' ∧ (curveWellFormed s.curve → s.inRange q' = true) := by
  obtain ⟨hq, rfl⟩ := ok_of_range_check (ok_of_raising_check h)
  exact ⟨_, rfl, fun hc => mul_inRange _ k (p_pos_of_curveWellFormed hc) hq⟩

theorem mayWrite_of_field {i : Instr} {s : State} {rd : FReg} {e : Effect}
    (hd : destField i = some rd) (h : ∃ v, e = .field rd v) : MayWrite i s e := by
  obtain ⟨v, rfl⟩ := h
  exact hd

theorem mayWrite_of_point {i : Instr} {s : State} {pd : PReg} {e : Effect}
    (hd : destPoint i = some pd)
    (h : ∃ q, e = .point pd q ∧ (curveWellFormed s.curve → s.inRange q = true)) :
    MayWrite i s e := by
  obtain ⟨q, rfl, hq⟩ := h
  exact ⟨hd, hq⟩

/-- Every instruction completes, and a result that is no error writes what the instruction may write. -/
theorem exec_completes_mayWrite (i : Instr) (s : State) :
    ∃ r, exec i s = .next (s.complete r) ∧ ∀ e, r = .ok e → MayWrite i s e := by
  cases i with
  | nop => exact ⟨_, rfl, fun e h => Except.ok.inj h ▸ rfl⟩
  | montmul => exact ⟨_, rfl, fun _ h => mayWrite_of_field rfl (montmulResult_ok h)⟩
  | barrett => exact ⟨_, rfl, fun _ h => mayWrite_of_field rfl (barrettResult_ok h)⟩
  | modexp => exact ⟨_, rfl, fun _ h => mayWrite_of_field rfl (modexpResult_ok h)⟩
  | modinv => exact ⟨_, rfl, fun _ h => mayWrite_of_field rfl (modinvResult_ok h)⟩
  | padd => exact ⟨_, rfl, fun _ h => mayWrite_of_point rfl (paddResult_ok h)⟩
  | pdbl => exact ⟨_, rfl, fun _ h => mayWrite_of_point rfl (pdblResult_ok h)⟩
  | smul => exact ⟨_, rfl, fun _ h => mayWrite_of_point rfl (smulResult_ok h)⟩

/-- Everything one instruction can do: it raises an error, or writes what it may write. -/
theorem exec_next_cases {i : Instr} {s t : State} (h : exec i s = .next t) :
    (∃ c, t = s.raise c) ∨ ∃ e, MayWrite i s e ∧ t = s.succeed e := by
  obtain ⟨r, hr, hw⟩ := exec_completes_mayWrite i s
  obtain rfl : s.complete r = t := Host.Outcome.next.inj (hr.symm.trans h)
  cases r with
  | error c => exact .inl ⟨c, rfl⟩
  | ok e => exact .inr ⟨e, hw e rfl, rfl⟩

/-- No instruction has both a field and a point register as its destination (R92, R93). -/
theorem destPoint_eq_none_of_destField {i : Instr} {rd : FReg} (h : destField i = some rd) :
    destPoint i = none := by
  cases i with
  | padd | pdbl | smul => cases h
  | _ => rfl

/-! ### What every command leaves alone (R21, R24, R25, R39) -/

/-- R21: of the field registers an instruction changes its destination at most. -/
theorem exec_readF {i : Instr} {s t : State} (h : exec i s = .next t) {j : FReg}
    (hj : destField i ≠ some j) : t.readF j = s.readF j := by
  obtain ⟨c, rfl⟩ | ⟨e, he, rfl⟩ := exec_next_cases h
  · rfl
  · cases e with
    | nothing => rfl
    | field rd v => exact (readF_succeed_field s rd j v).trans (if_neg (by rintro rfl; exact hj he))
    | point pd q => rfl

/-- R25: of the point registers an instruction changes its destination at most. -/
theorem exec_readPReg {i : Instr} {s t : State} (h : exec i s = .next t) {j : PReg}
    (hj : destPoint i ≠ some j) : t.readPReg j = s.readPReg j := by
  obtain ⟨c, rfl⟩ | ⟨e, he, rfl⟩ := exec_next_cases h
  · rfl
  · cases e with
    | nothing => rfl
    | field rd v => rfl
    | point pd q =>
      exact (readPReg_succeed_point s pd j q).trans (if_neg (by rintro rfl; exact hj he.1))

/-- R192: of STATUS completion leaves OVR and WBUSY, clears BUSY and sets DONE. -/
theorem complete_status_frame (s : State) (r : Result) :
    (s.complete r).status.ovr = s.status.ovr ∧ (s.complete r).status.wbusy = s.status.wbusy
      ∧ (s.complete r).status.busy = false ∧ (s.complete r).status.done = true := by
  cases r <;> exact ⟨rfl, rfl, rfl, rfl⟩

/-- Settles O43: only `succeed` writes a data register, and the effect it writes names the destination. -/
theorem commandWritesOnlyItsDestination : Obligations.CommandWritesOnlyItsDestination := by
  intro i s t h
  refine ⟨fun _ => exec_readF h, fun _ => exec_readPReg h, ?_⟩
  obtain ⟨r, rfl⟩ := exec_next h
  obtain ⟨hcmd, hie, hcurve, hbase, hadm, hreset, hpending, hrdata⟩ := complete_frame s r
  exact ⟨hcmd, hie, hcurve, hbase, hadm, hreset, hpending, hrdata, complete_status_frame s r⟩

/-- R24: a point in range is written in canonical form. -/
theorem regOfPoint_canonical {p : U256} {q : Point} (h : Point.inRange p.toNat q = true) :
    regOfPoint q = { inf := true, x := 0, y := 0 }
      ∨ ((regOfPoint q).inf = false ∧ (regOfPoint q).x < p ∧ (regOfPoint q).y < p) := by
  cases q with
  | identity => exact .inl rfl
  | affine x y =>
    simp only [Point.inRange, Bool.and_eq_true, decide_eq_true_eq] at h
    have below {v : Nat} (hv : v < p.toNat) : BitVec.ofNat 256 v < p := by
      rw [BitVec.lt_def, BitVec.toNat_ofNat]
      exact (Nat.mod_le _ _).trans_lt hv
    exact .inr ⟨rfl, below h.1, below h.2⟩

/-- Settles O39: a point command that reports no error has written a point in range. -/
theorem pointResultsAreCanonical : Obligations.PointResultsAreCanonical := by
  intro i s t pd hc hd h hok
  obtain ⟨c, rfl⟩ | ⟨e, he, rfl⟩ := exec_next_cases h
  · cases hok
  · cases e with
    | nothing =>
      obtain rfl : i = .nop := he
      cases hd
    | field rd v =>
      rw [destPoint_eq_none_of_destField he] at hd
      cases hd
    | point pd' q =>
      obtain ⟨hd', hq⟩ := he
      obtain rfl : pd' = pd := Option.some.inj (hd'.symm.trans hd)
      rw [readPReg_succeed_point, if_pos rfl]
      exact regOfPoint_canonical (hq hc)

/-- Settles O44: every location reads a register that the frame of O43 covers. -/
theorem windowFrameOfCommands : Obligations.WindowFrameOfCommands := by
  intro i s t h
  obtain ⟨hf, hp, hcmd, hie, hcurve, -⟩ := commandWritesOnlyItsDestination i s t h
  refine ⟨fun r hr => ?_, fun j hj => ?_⟩
  · cases r with
    | id => rfl
    | ctrl => rfl
    | status => cases hr
    | ie => exact congrArg ieWord hie
    | cmd => exact hcmd
    | pinf =>
      have hnone : destPoint i = none := by simpa [mayChange] using hr
      exact congrArg pinfWord (p_ext fun j => hp j (by simp [hnone]))
    | f k j => exact congrArg (wordOf · j) (hf k (by simpa [mayChange] using hr))
    | px k j => exact congrArg (wordOf ·.x j) (hp k (by simpa [mayChange] using hr))
    | py k j => exact congrArg (wordOf ·.y j) (hp k (by simpa [mayChange] using hr))
    | curve r j => exact congrArg (fun c => wordOf (curveReg c r) j) hcurve
  · simp only [getLsbD_readReg_pinf, j.isLt, dif_pos]
    exact congrArg PointReg.inf (hp j hj)

/-! ### What one step can do (R72) -/

/-- What one event can do to a block with the events `u.pending` still to come after it. -/
inductive EventResult (u : State) : State → Prop
  /-- the engine's turn while no command is pending (R241) -/
  | idle (h : u.status.busy = false) : EventResult u u
  /-- the engine's turn while one is (R192) -/
  | completion (r : Result) (h : u.status.busy = true) : EventResult u (u.complete r)
  /-- a host read, or a host write that is lost because reset is asserted (R68, R240) -/
  | response (d : Option Word) : EventResult u (u.setRdata d)
  /-- a host write to a location (R61) -/
  | hostWrite (r : WindowReg) (v : Word) (h : u.resetAsserted = false) :
      EventResult u ((u.writeReg r v).setRdata none)
  /-- the reset input asserted (R240) -/
  | reset : EventResult u (u.blockReset.setResetAsserted true)
  /-- the reset input released (R240) -/
  | release : EventResult u (u.setResetAsserted false)

theorem engineTurn_eventResult {u t : State} (h : engineTurn u = .next t) : EventResult u t := by
  obtain ⟨hb, rfl⟩ | ⟨hb, r, rfl⟩ := engineTurn_next h
  · exact .idle hb
  · exact .completion r hb

theorem runEvent_eventResult {e : Event} {u t : State} (h : runEvent e u = .next t) :
    EventResult u t := by
  cases e with
  | read addr size =>
    obtain ⟨r, -, rfl⟩ := hostRead_next h
    exact .response _
  | write addr size v =>
    obtain ⟨r, -, rfl⟩ := hostWrite_next h
    cases hr : u.resetAsserted
    · exact .hostWrite r v hr
    · exact .response none
  | engine => exact engineTurn_eventResult h
  | resetAssert => exact Host.Outcome.next.inj h ▸ .reset
  | resetRelease => exact Host.Outcome.next.inj h ▸ .release

/-- Every step takes one event off the list, or finds none and is the engine's turn. -/
theorem step_eventResult {s t : State} (h : step s = .next t) :
    ∃ rest, EventResult (s.setPending rest) t := by
  obtain ⟨-, ⟨hp, ht⟩ | ⟨e, rest, -, ht⟩⟩ := step_next h
  · exact ⟨s.pending, engineTurn_eventResult ht⟩
  · exact ⟨rest, runEvent_eventResult ht⟩

/-! ### The instance never changes (R28, R242) -/

/-- Both states are of the same instance: the same `CURVE`, `BASE` and admission. -/
def SameInstance (s t : State) : Prop :=
  t.curve = s.curve ∧ t.basePage = s.basePage ∧ t.admitted = s.admitted

theorem WriteResult.sameInstance {s t : State} (h : WriteResult s t) : SameInstance s t := by
  cases h <;> exact ⟨rfl, rfl, rfl⟩

theorem EventResult.sameInstance {u t : State} (h : EventResult u t) : SameInstance u t := by
  cases h with
  | completion r h =>
    obtain ⟨-, -, hcurve, hbase, hadm, -⟩ := complete_frame u r
    exact ⟨hcurve, hbase, hadm⟩
  | hostWrite r v h => exact (writeResult_writeReg u r v).sameInstance
  | idle | response | reset | release => exact ⟨rfl, rfl, rfl⟩

/-- Settles O7: no event changes the instance. -/
theorem stepKeepsCurveAndBase : Obligations.StepKeepsCurveAndBase := by
  intro s t h
  obtain ⟨rest, ht⟩ := step_eventResult h
  exact ht.sameInstance

/-! ### DONE rises only at completion (R32, R192) -/

/-- No host write sets DONE: acceptance and a STATUS write clear it at most. -/
theorem WriteResult.done {s t : State} (h : WriteResult s t) (hd : t.status.done = true) :
    s.status.done = true := by
  cases h with
  | reset => cases hd
  | statusBits v => exact (Bool.and_eq_true_iff.1 hd).1
  | accepted c h => cases hd
  | ignored | intEnable | commandDropped | field | points | operandDropped => exact hd

/-- DONE stands after an event only if it stood before, or the event completed a command. -/
theorem EventResult.done {u t : State} (h : EventResult u t) (hd : t.status.done = true) :
    u.status.done = true ∨ (u.status.busy = true ∧ t.status.busy = false) := by
  cases h with
  | completion r hb =>
    obtain ⟨-, -, hidle, -⟩ := complete_status_frame u r
    exact .inr ⟨hb, hidle⟩
  | hostWrite r v h => exact .inl ((writeResult_writeReg u r v).done hd)
  | reset => cases hd
  | idle | response | release => exact .inl hd

/-- Settles O9: of all events only a completion sets DONE. -/
theorem doneRisesOnlyAtCompletion : Obligations.DoneRisesOnlyAtCompletion := by
  intro s t h hclear hset
  obtain ⟨rest, ht⟩ := step_eventResult h
  exact (ht.done hset).resolve_left (by simp [hclear])

/-! ### The working storage is unobservable (R40) -/

/-- The outcome without the working storage of its state. -/
def forgetWork : Host.Outcome State Fault Refusal → Host.Outcome State Fault Refusal
  | .next t => .next (t.setWork 0)
  | .fault e => .fault e
  | .refused e => .refused e

theorem complete_setWork (s : State) (w : Nat) (r : Result) :
    SameButWork ((s.setWork w).complete r) (s.complete r) := by
  cases r with
  | error c => rfl
  | ok e => cases e <;> rfl

theorem exec_setWork (i : Instr) (s : State) (w : Nat) :
    forgetWork (exec i (s.setWork w)) = forgetWork (exec i s) := by
  have same_result : ∃ r, exec i s = .next (s.complete r)
      ∧ exec i (s.setWork w) = .next ((s.setWork w).complete r) := by
    cases i <;> exact ⟨_, rfl, rfl⟩
  obtain ⟨r, hs, hw⟩ := same_result
  rw [hs, hw]
  exact congrArg Host.Outcome.next (complete_setWork s w r)

theorem engineTurn_setWork (s : State) (w : Nat) :
    forgetWork (engineTurn (s.setWork w)) = forgetWork (engineTurn s) := by
  cases hb : s.status.busy
  · rw [engineTurn_idle hb, engineTurn_idle (s := s.setWork w) hb]
    rfl
  · cases hd : decode s.cmdlat with
    | ok i =>
      rw [engineTurn_legal hb hd, engineTurn_legal (s := s.setWork w) hb hd]
      exact exec_setWork i s w
    | error e =>
      rw [engineTurn_illegal hb hd, engineTurn_illegal (s := s.setWork w) hb hd]
      rfl

theorem writeOperand_setWork (s : State) (w : Nat) {s' s'' : State} (h : s'' = s'.setWork w) :
    (s.setWork w).writeOperand s'' = (s.writeOperand s').setWork w := by
  cases hb : s.status.busy
  · rw [writeOperand_idle hb, writeOperand_idle (s := s.setWork w) hb, h]
  · rw [writeOperand_busy hb, writeOperand_busy (s := s.setWork w) hb]
    rfl

theorem issue_setWork (s : State) (w : Nat) (c : Word) :
    (s.setWork w).issue c = (s.issue c).setWork w := by
  cases hb : s.status.busy
  · rw [issue_idle hb, issue_idle (s := s.setWork w) hb]
    rfl
  · rw [issue_busy hb, issue_busy (s := s.setWork w) hb]
    rfl

theorem sameButWork_of_eq_setWork {s t : State} {w : Nat} (h : t = s.setWork w) :
    SameButWork t s := by
  subst h
  rfl

theorem writeReg_setWork (s : State) (w : Nat) (r : WindowReg) (v : Word) :
    SameButWork ((s.setWork w).writeReg r v) (s.writeReg r v) := by
  cases r with
  | ctrl =>
    rw [writeReg_ctrl, writeReg_ctrl]
    split <;> rfl
  | cmd => exact sameButWork_of_eq_setWork (issue_setWork s w v)
  | pinf | f | px | py => exact sameButWork_of_eq_setWork (writeOperand_setWork s w rfl)
  | id | status | ie | curve => rfl

theorem hostRead_setWork (s : State) (w addr size : Nat) :
    forgetWork ((s.setWork w).hostRead addr size) = forgetWork (s.hostRead addr size) := by
  have same_route : (s.setWork w).route addr size = s.route addr size := rfl
  simp only [State.hostRead, same_route]
  split
  next r _ => cases r <;> rfl
  next => rfl
  next => rfl

theorem hostWrite_setWork (s : State) (w addr size : Nat) (v : Word) :
    forgetWork ((s.setWork w).hostWrite addr size v) = forgetWork (s.hostWrite addr size v) := by
  have same_route : (s.setWork w).route addr size = s.route addr size := rfl
  simp only [State.hostWrite, same_route]
  split
  next r _ =>
    by_cases hr : s.resetAsserted = true
    · rw [if_pos hr, if_pos (show (s.setWork w).resetAsserted = true from hr)]
      rfl
    · rw [if_neg hr, if_neg (show ¬ (s.setWork w).resetAsserted = true from hr)]
      exact congrArg (fun t : State => Host.Outcome.next (t.setRdata none))
        (writeReg_setWork s w r v)
  next => rfl
  next => rfl

theorem runEvent_setWork (e : Event) (s : State) (w : Nat) :
    forgetWork (runEvent e (s.setWork w)) = forgetWork (runEvent e s) := by
  cases e with
  | read addr size => exact hostRead_setWork s w addr size
  | write addr size v => exact hostWrite_setWork s w addr size v
  | engine => exact engineTurn_setWork s w
  | resetAssert => rfl
  | resetRelease => rfl

theorem step_setWork (s : State) (w : Nat) :
    forgetWork (step (s.setWork w)) = forgetWork (step s) := by
  cases ha : s.admitted
  · rw [step_not_admitted ha, step_not_admitted (s := s.setWork w) ha]
  · cases hp : s.pending with
    | nil =>
      rw [step_of_pending_nil ha hp, step_of_pending_nil (s := s.setWork w) ha hp]
      exact engineTurn_setWork s w
    | cons e rest =>
      rw [step_of_pending_cons ha hp, step_of_pending_cons (s := s.setWork w) ha hp]
      exact runEvent_setWork e (s.setPending rest) w

/-- States that differ in the working storage alone take steps that differ in it alone. -/
theorem forgetWork_step_congr {s1 s2 : State} (h : SameButWork s1 s2) :
    forgetWork (step s1) = forgetWork (step s2) := by
  calc forgetWork (step s1)
      = forgetWork (step (s1.setWork 0)) := (step_setWork s1 0).symm
    _ = forgetWork (step (s2.setWork 0)) := by rw [show s1.setWork 0 = s2.setWork 0 from h]
    _ = forgetWork (step s2) := step_setWork s2 0

theorem next_of_forgetWork_eq {t1 : State} {o : Host.Outcome State Fault Refusal}
    (h : forgetWork (.next t1) = forgetWork o) : ∃ t2, o = .next t2 ∧ SameButWork t1 t2 := by
  cases o with
  | next t2 => exact ⟨t2, rfl, Host.Outcome.next.inj h⟩
  | fault e => cases h
  | refused e => cases h

theorem fault_of_forgetWork_eq {e : Fault} {o : Host.Outcome State Fault Refusal}
    (h : .fault e = forgetWork o) : o = .fault e := by
  cases o with
  | fault e' => exact h.symm
  | next t => cases h
  | refused e' => cases h

theorem refused_of_forgetWork_eq {e : Refusal} {o : Host.Outcome State Fault Refusal}
    (h : .refused e = forgetWork o) : o = .refused e := by
  cases o with
  | refused e' => exact h.symm
  | next t => cases h
  | fault e' => cases h

/-- Settles O10: no part of a step reads the working storage but to draw the next one. -/
theorem workingStorageIsUnobservable : Obligations.WorkingStorageIsUnobservable := by
  intro s1 s2 h
  have hstep := forgetWork_step_congr h
  refine ⟨fun t1 h1 => ?_, fun e h1 => ?_, fun e h1 => ?_⟩ <;> rw [h1] at hstep
  · exact next_of_forgetWork_eq hstep
  · exact fault_of_forgetWork_eq hstep
  · exact refused_of_forgetWork_eq hstep

/-! ### The state after reset (R22, R26, R41) -/

/-- Settles O1: every register by its own lemma on the reset state. -/
theorem resetReadings : Obligations.ResetReadings :=
  ⟨readF_resetOf _ _ _, readPReg_resetOf _ _ _, by decide, rfl, rfl, rfl, rfl, rfl, rfl, rfl⟩

/-- Settles O5: nothing is pending, no error stands, reset is released, and the open `CURVE` is well formed
by its definition. -/
theorem resetIsConsistent : Obligations.ResetIsConsistent :=
  ⟨nofun, nofun, nofun, fun _ => config_curve_wellFormed⟩

end Sys2Proof.Proofs

/-! The register window (20_memory.md): the address map, reads and writes of its locations, bus errors, the
words and bytes of a 256-bit register, and what a pending command freezes. -/

namespace Sys2Proof.Proofs

open Sys2Proof.Machine

/-! ### The address map (R66, R67, R71) -/

/-- R67: no location stands in a reserved range. -/
theorem locate_reserved {off : Nat} (h : (0x018 ≤ off ∧ off < 0x100) ∨ 0x5C0 ≤ off) :
    locate off = none := by
  unfold locate
  rw [if_neg (by omega)]
  obtain hlow | hhigh := h
  · rw [if_pos hlow.2]
  · have hindex : (off - 0x500) / 0x20 = (off - 0x5C0) / 0x20 + 6 := by omega
    rw [if_neg (by omega), if_neg (by omega), if_neg (by omega), hindex]
    rfl

theorem exists_index_eq {n : Nat} (h : n < 6) : ∃ r : CurveReg, r.index = n :=
  match n with
  | 0 => ⟨.p, rfl⟩
  | 1 => ⟨.a, rfl⟩
  | 2 => ⟨.b, rfl⟩
  | 3 => ⟨.n, rfl⟩
  | 4 => ⟨.gx, rfl⟩
  | 5 => ⟨.gy, rfl⟩

/-- R66: every aligned offset outside the reserved ranges is the offset of a location. -/
theorem exists_offset_eq {off : Nat} (halign : off % 4 = 0)
    (h : ¬ ((0x018 ≤ off ∧ off < 0x100) ∨ 0x5C0 ≤ off)) : ∃ r : WindowReg, r.offset = off := by
  obtain hctl | hf | hp | hc :
      off < 0x018 ∨ (0x100 ≤ off ∧ off < 0x300) ∨ (0x300 ≤ off ∧ off < 0x500)
        ∨ (0x500 ≤ off ∧ off < 0x5C0) := by omega
  · obtain rfl | rfl | rfl | rfl | rfl | rfl : off = 0x000 ∨ off = 0x004 ∨ off = 0x008
        ∨ off = 0x00C ∨ off = 0x010 ∨ off = 0x014 := by omega
    · exact ⟨.id, rfl⟩
    · exact ⟨.ctrl, rfl⟩
    · exact ⟨.status, rfl⟩
    · exact ⟨.ie, rfl⟩
    · exact ⟨.cmd, rfl⟩
    · exact ⟨.pinf, rfl⟩
  · refine ⟨.f ⟨(off - 0x100) / 0x20, by omega⟩ (wordIndex off), ?_⟩
    simp only [WindowReg.offset, wordIndex]
    omega
  · by_cases hx : off / 0x20 % 2 = 0
    · refine ⟨.px ⟨(off - 0x300) / 0x40, by omega⟩ (wordIndex off), ?_⟩
      simp only [WindowReg.offset, wordIndex]
      omega
    · refine ⟨.py ⟨(off - 0x300) / 0x40, by omega⟩ (wordIndex off), ?_⟩
      simp only [WindowReg.offset, wordIndex]
      omega
  · obtain ⟨r, hr⟩ := exists_index_eq (n := (off - 0x500) / 0x20) (by omega)
    refine ⟨.curve r (wordIndex off), ?_⟩
    simp only [WindowReg.offset, wordIndex, hr]
    omega

/-- R66, R67: an aligned offset holds no location exactly when it is reserved. -/
theorem locate_eq_none_iff {off : Nat} (halign : off % 4 = 0) :
    locate off = none ↔ (0x018 ≤ off ∧ off < 0x100) ∨ 0x5C0 ≤ off := by
  refine ⟨fun hnone => ?_, locate_reserved⟩
  by_contra h
  obtain ⟨r, rfl⟩ := exists_offset_eq halign h
  rw [locate_offset] at hnone
  cases hnone

/-- R66: a location that an aligned offset holds stands at that offset. -/
theorem offset_of_locate {off : Nat} {r : WindowReg} (halign : off % 4 = 0)
    (hr : locate off = some r) : r.offset = off := by
  have h : ¬ ((0x018 ≤ off ∧ off < 0x100) ∨ 0x5C0 ≤ off) := by
    rw [← locate_eq_none_iff halign, hr]
    simp
  obtain ⟨r', rfl⟩ := exists_offset_eq halign h
  rw [locate_offset] at hr
  exact congrArg WindowReg.offset (Option.some.inj hr).symm

/-- R71: an access outside the window is the platform's. -/
theorem route_outside {s : State} {addr : Nat} (h : addr < s.base ∨ s.base + 0x1000 ≤ addr)
    (size : Nat) : s.route addr size = .platform :=
  if_pos h

/-- Settles O48: `locate` is the inverse of `WindowReg.offset` on the aligned offsets that are not
reserved. -/
theorem addressMap : Obligations.AddressMap :=
  ⟨⟨rfl, rfl, rfl, rfl, rfl, rfl⟩, locate_f, fun i j => ⟨locate_px i j, locate_py i j⟩,
    fun j => ⟨locate_curve .p j, locate_curve .a j, locate_curve .b j, locate_curve .n j,
      locate_curve .gx j, locate_curve .gy j⟩,
    fun r => ⟨offset_lt r, offset_mod_four r, locate_offset r⟩,
    fun _ _ => offset_of_locate, fun _ halign _ => locate_eq_none_iff halign,
    fun s => Nat.mul_mod_right 4096 s.basePage,
    fun s addr size v h => by
      simp [State.hostRead, State.hostWrite, route_outside h]⟩

/-! ### Bus errors (R65, R67) -/

theorem inside_window {s : State} {off : Nat} (hlt : off < 0x1000) :
    ¬ (s.base + off < s.base ∨ s.base + Config.windowBytes ≤ s.base + off) := by
  simp only [Config.windowBytes]
  omega

/-- R65: an access of the window that is not 4 bytes wide, aligned or not. -/
theorem route_of_size_ne {s : State} {off size : Nat} (hlt : off < 0x1000) (hsize : size ≠ 4) :
    s.route (s.base + off) size = .busError .busErrorSize := by
  unfold State.route
  rw [if_neg (inside_window hlt), if_pos hsize]

/-- R65: a 4-byte access of the window that is not aligned. -/
theorem route_of_unaligned {s : State} {off : Nat} (hlt : off < 0x1000) (halign : off % 4 ≠ 0) :
    s.route (s.base + off) 4 = .busError .busErrorAlignment := by
  unfold State.route
  rw [if_neg (inside_window hlt), if_neg (by simp), Nat.add_sub_cancel_left, if_pos halign]

/-- R67: an aligned 4-byte access of the window where no location stands. -/
theorem route_of_locate_none {s : State} {off : Nat} (hlt : off < 0x1000) (halign : off % 4 = 0)
    (hnone : locate off = none) : s.route (s.base + off) 4 = .busError .busErrorReserved := by
  unfold State.route
  rw [if_neg (inside_window hlt), if_neg (by simp), Nat.add_sub_cancel_left,
    if_neg (by simp [halign]), hnone]

/-- R207: a host access that the block answers with a bus error is a fault of the step. -/
theorem step_busError {s : State} {addr size : Nat} {v : Word} {rest : List Event} {e : Fault}
    (hadm : s.admitted = true) (hroute : s.route addr size = .busError e)
    (hp : s.pending = .read addr size :: rest ∨ s.pending = .write addr size v :: rest) :
    step s = .fault e := by
  have hroute' : (s.setPending rest).route addr size = .busError e := hroute
  obtain hp | hp := hp
  · rw [step_of_pending_cons hadm hp, runEvent, State.hostRead, hroute']
  · rw [step_of_pending_cons hadm hp, runEvent, State.hostWrite, hroute']

/-- Settles O50: the size is looked at before the alignment. -/
theorem unalignedOrOddSizedAccessFaults : Obligations.UnalignedOrOddSizedAccessFaults := by
  intro s off size v rest hadm hlt hbad hp
  refine step_busError hadm ?_ hp
  by_cases hsize : size = 4
  · subst hsize
    exact route_of_unaligned hlt (hbad.resolve_left (by simp))
  · rw [if_pos hsize]
    exact route_of_size_ne hlt hsize

/-- Settles O51: `locate` finds nothing in a reserved range. -/
theorem reservedOffsetFaults : Obligations.ReservedOffsetFaults := by
  intro s off v rest halign hres hacc
  have hnone : locate off = none := locate_reserved (by omega)
  have hroute := route_of_locate_none (s := s) (by omega) halign hnone
  obtain ⟨hp, hadm⟩ | ⟨hp, hadm⟩ := hacc
  · exact step_busError (v := v) hadm hroute (.inl hp)
  · exact step_busError hadm hroute (.inr hp)

/-! ### The words and bytes of a 256-bit register (R62 to R64) -/

/-- R62: bit `k` of word `j`. -/
theorem getLsbD_wordOf (v : U256) (j : Fin 8) {k : Nat} (hk : k < 32) :
    (wordOf v j).getLsbD k = v.getLsbD (32 * j.val + k) := by
  simp [wordOf, hk]

/-- R62: word `j` takes the bits of the value written, and no other bit changes. -/
theorem getLsbD_setWordOf (v : U256) (j : Fin 8) (w : Word) {k : Nat} (hk : k < 256) :
    (setWordOf v j w).getLsbD k =
      if 32 * j.val ≤ k ∧ k < 32 * j.val + 32 then w.getLsbD (k - 32 * j.val)
      else v.getLsbD k := by
  have hw : k - 32 * j.val < 256 := by omega
  simp only [setWordOf, BitVec.getLsbD_or, BitVec.getLsbD_and, BitVec.getLsbD_not,
    BitVec.getLsbD_shiftLeft, BitVec.getLsbD_setWidth, BitVec.getLsbD_allOnes, hk, hw]
  obtain hlow | hin | hhigh :
      k < 32 * j.val ∨ (32 * j.val ≤ k ∧ k < 32 * j.val + 32) ∨ 32 * j.val + 32 ≤ k := by omega
  · rw [if_neg (by omega)]
    simp [hlow]
  · have hnot : ¬ k < 32 * j.val := by omega
    have hbit : k - 32 * j.val < 32 := by omega
    rw [if_pos hin]
    simp [hnot, hbit]
  · have hnot : ¬ k < 32 * j.val := by omega
    have hbit : 32 ≤ k - 32 * j.val := by omega
    rw [if_neg (by omega)]
    simp [hnot, hbit]

/-- Writing a word twice is writing it once. -/
theorem setWordOf_setWordOf (v : U256) (j : Fin 8) (w : Word) :
    setWordOf (setWordOf v j w) j w = setWordOf v j w := by
  refine BitVec.eq_of_getLsbD_eq fun k hk => ?_
  simp only [getLsbD_setWordOf _ _ _ hk]
  split <;> rfl

/-- Settles O53: both forms take the register's bits from `248 - 8 * i` up. -/
theorem serializedBytesInTheWindow : Obligations.SerializedBytesInTheWindow := by
  intro v i j k hj hk
  have hstart : 248 - 8 * i.val = 32 * j.val + 8 * k.val := by omega
  refine BitVec.eq_of_getLsbD_eq fun b hb => ?_
  have hbit : 8 * k.val + b < 32 := by omega
  simp only [serialByte, byteOfWord, BitVec.getLsbD_extractLsb', getLsbD_wordOf v j hbit, hstart,
    Nat.add_assoc]

/-! ### Reads of a location, and what a second equal write does (R61, R68) -/

/-- A host read of a location is answered with its value, and nothing else changes (R61, R68). -/
theorem step_hostReads {s : State} {r : WindowReg} {rest : List Event}
    (h : HostReads s r.offset rest) :
    step s = .next ((s.setPending rest).setRdata (some (s.readReg r))) := by
  obtain ⟨hp, hadm⟩ := h
  rw [step_of_pending_cons hadm hp]
  change (s.setPending rest).hostRead ((s.setPending rest).base + r.offset) 4 = _
  rw [State.hostRead, route_offset]
  cases r <;> rfl

theorem setF_setF (s : State) (i : FReg) (x y : U256) : (s.setF i x).setF i y = s.setF i y := by
  simp [State.setF]

theorem setPReg_setPReg (s : State) (i : PReg) (x y : PointReg) :
    (s.setPReg i x).setPReg i y = s.setPReg i y := by
  simp [State.setPReg]

theorem setPinf_setPinf (p : Vector PointReg 8) (v : Word) :
    setPinf (setPinf p v) v = setPinf p v := by
  refine Vector.ext fun i hi => ?_
  simp [setPinf]

/-- An operand write that is idempotent while idle is so while busy: WBUSY stands already. -/
theorem writeOperand_idempotent {g : State → State} (s : State)
    (hstatus : (g s).status = s.status) (hg : g (g s) = g s) :
    (s.writeOperand (g s)).writeOperand (g (s.writeOperand (g s))) = s.writeOperand (g s) := by
  cases hb : s.status.busy
  · rw [writeOperand_idle hb, writeOperand_idle (hstatus ▸ hb), hg]
  · rw [writeOperand_busy hb]
    exact writeOperand_busy (s := s.setStatus _) hb _

/-- So is an operand write of an idempotent change `m` to a point register. -/
theorem writeOperand_setPReg_idempotent {m : PointReg → PointReg} (s : State) (i : PReg)
    (hm : ∀ r, m (m r) = m r) :
    let g (s : State) := s.setPReg i (m (s.readPReg i))
    (s.writeOperand (g s)).writeOperand (g (s.writeOperand (g s))) = s.writeOperand (g s) :=
  writeOperand_idempotent (g := fun s => s.setPReg i (m (s.readPReg i))) s rfl
    (by simp [setPReg_setPReg, hm])

/-- R68: a second equal write to a location that is not CMD, STATUS or CTRL changes nothing. -/
theorem writeReg_idempotent (s : State) {r : WindowReg} (v : Word) (hcmd : r ≠ .cmd)
    (hstatus : r ≠ .status) (hctrl : r ≠ .ctrl) :
    (s.writeReg r v).writeReg r v = s.writeReg r v := by
  cases r with
  | id | ie | curve => rfl
  | cmd => exact absurd rfl hcmd
  | status => exact absurd rfl hstatus
  | ctrl => exact absurd rfl hctrl
  | pinf =>
    exact writeOperand_idempotent (g := fun s => s.setP (setPinf s.p v)) s rfl
      (congrArg s.setP (setPinf_setPinf s.p v))
  | f i j =>
    refine writeOperand_idempotent (g := fun s => s.setF i (setWordOf (s.readF i) j v)) s rfl ?_
    simp [setF_setF, setWordOf_setWordOf]
  | px i j =>
    exact writeOperand_setPReg_idempotent (m := fun r => { r with x := setWordOf r.x j v }) s i
      fun r => by rw [setWordOf_setWordOf]
  | py i j =>
    exact writeOperand_setPReg_idempotent (m := fun r => { r with y := setWordOf r.y j v }) s i
      fun r => by rw [setWordOf_setWordOf]

/-- Settles O49: a read sets `rdata` alone, and every write but those three is a `setWordOf`, a `setPinf`, an
IE write or nothing. -/
theorem readsAreSilentWritesIdempotent : Obligations.ReadsAreSilentWritesIdempotent :=
  ⟨fun _ _ _ => step_hostReads, fun _ => ⟨rfl, rfl, rfl⟩,
    fun s _ v => writeReg_idempotent s v⟩

/-! ### Writing a word of a register while idle (R62) -/

/-- Settles O52: reads by `getLsbD_wordOf`; an idle write is one `setF` or `setPReg` of a `setWordOf`. -/
theorem registerWordAccess : Obligations.RegisterWordAccess := by
  refine ⟨fun s i j k => getLsbD_wordOf _ j,
    fun s i j k hk => ⟨getLsbD_wordOf _ j hk, getLsbD_wordOf _ j hk⟩,
    fun s r j k => getLsbD_wordOf _ j, ?_, ?_, ?_⟩
  all_goals
    intro s i j v rest hidle h
    refine ⟨_, step_hostWrites h, ?_⟩
    rw [State.writeReg, writeOperand_idle (s := s.setPending rest) hidle]
  · exact ⟨rfl, fun i' hi => by simp [hi], fun k hk => by simp [getLsbD_setWordOf _ _ _ hk]⟩
  all_goals exact ⟨rfl, fun i' hi => by simp [hi], by simp, by simp,
    fun k hk => by simp [getLsbD_setWordOf _ _ _ hk]⟩

/-! ### A pending command freezes the data registers, PINF and CMD (R70, R252) -/

/-- Both states hold the same field registers, point registers and command word. -/
def SameData (s t : State) : Prop := t.f = s.f ∧ t.p = s.p ∧ t.cmdlat = s.cmdlat

/-- While a command is pending a host write changes STATUS and IE at most, or is a soft reset. -/
theorem WriteResult.sameData {s t : State} (h : WriteResult s t) (hs : s.status.busy = true)
    (ht : t.status.busy = true) : SameData s t := by
  cases h with
  | reset => cases ht
  | accepted c hidle | field i x hidle | points p hidle =>
    rw [hs] at hidle
    cases hidle
  | ignored | statusBits | intEnable | commandDropped | operandDropped => exact ⟨rfl, rfl, rfl⟩

/-- An event that writes a data register ends the pending command, by completion or by reset. -/
theorem EventResult.sameData {u t : State} (h : EventResult u t) (hu : u.status.busy = true)
    (ht : t.status.busy = true) : SameData u t := by
  cases h with
  | completion r _ =>
    obtain ⟨-, -, hidle, -⟩ := complete_status_frame u r
    rw [hidle] at ht
    cases ht
  | hostWrite r v _ => exact (writeResult_writeReg u r v).sameData hu ht
  | reset => cases ht
  | idle | response | release => exact ⟨rfl, rfl, rfl⟩

/-- Settles O8: only a completion or a reset writes a data register of a busy block, and both leave it
idle. -/
theorem pendingCommandFreezesData : Obligations.PendingCommandFreezesData := by
  intro s t hs h ht
  obtain ⟨rest, hev⟩ := step_eventResult h
  obtain ⟨hf, hp, hcmd⟩ := hev.sameData hs ht
  exact ⟨hf, hp, hcmd, congrArg pinfWord hp, hcmd⟩

end Sys2Proof.Proofs

/-! The command words (30_encoding.md): the fields of a word, decoding and encoding as inverses, which words
are which command, as R100 and as R101 write it, and the engine's turn on an illegal word. -/

namespace Sys2Proof.Proofs

open Sys2Proof.Machine Sys2Proof.Laws

/-! ### Fields of a word (R9, R96) -/

theorem bits_lt (c : Word) (hi lo : Nat) : bits c hi lo < 2 ^ (hi + 1 - lo) :=
  Nat.mod_lt _ (Nat.two_pow_pos _)

/-- A field that ends at bit 0 is the low part of the word. -/
theorem bits_low (c : Word) (hi : Nat) : bits c hi 0 = c.toNat % 2 ^ (hi + 1) := by
  rw [bits, Nat.pow_zero, Nat.div_one, Nat.sub_zero]

/-- The bits `hi` to 0 of a word are the field `[hi:lo]`, followed by the bits below it. -/
theorem toNat_mod_eq (c : Word) {hi lo : Nat} (h : lo ≤ hi + 1) :
    c.toNat % 2 ^ (hi + 1) = 2 ^ lo * bits c hi lo + c.toNat % 2 ^ lo := by
  rw [← Nat.add_sub_cancel' h, pow_add, Nat.mod_mul, Nat.add_comm, bits]

/-- Two neighbouring fields are both 0 exactly when the field they make up is 0. -/
theorem bits_eq_zero_split (c : Word) {hi mid lo : Nat} (hlo : lo ≤ mid) (hhi : mid ≤ hi) :
    bits c hi lo = 0 ↔ bits c hi (mid + 1) = 0 ∧ bits c mid lo = 0 := by
  have hwhole := toNat_mod_eq c (hi := hi) (lo := lo) (by omega)
  have hhigh := toNat_mod_eq c (hi := hi) (lo := mid + 1) (by omega)
  have hlow := toNat_mod_eq c (hi := mid) (lo := lo) (by omega)
  have hsum :
      2 ^ lo * bits c hi lo = 2 ^ (mid + 1) * bits c hi (mid + 1) + 2 ^ lo * bits c mid lo := by
    omega
  have hzero (k x : Nat) : 2 ^ k * x = 0 ↔ x = 0 := by simp
  rw [← hzero lo, hsum, Nat.add_eq_zero_iff, hzero, hzero]

theorem fregField_eq_iff (c : Word) (lo : Nat) (r : FReg) :
    fregField c lo = r ↔ bits c (lo + 3) lo = r.val := by
  rw [Fin.ext_iff, bits, show lo + 3 + 1 - lo = 4 by omega]
  rfl

theorem pregField_eq_iff (c : Word) (lo : Nat) (r : PReg) :
    pregField c lo = r ↔ bits c (lo + 2) lo = r.val := by
  rw [Fin.ext_iff, bits, show lo + 2 + 1 - lo = 3 by omega]
  rfl

theorem fregField_eq_zero_iff (c : Word) (lo : Nat) :
    fregField c lo = 0 ↔ bits c (lo + 3) lo = 0 := fregField_eq_iff c lo 0

theorem pregField_eq_zero_iff (c : Word) (lo : Nat) :
    pregField c lo = 0 ↔ bits c (lo + 2) lo = 0 := pregField_eq_iff c lo 0

/-- An option bit has the value of its one-bit field. -/
theorem bit_eq_iff (c : Word) (k : Nat) (b : Bool) :
    (bits c k k == 1) = b ↔ bits c k k = b.toNat := by
  have h := bits_lt c k k
  rw [Nat.add_sub_cancel_left] at h
  cases b with
  | false =>
    rw [beq_eq_false_iff_ne, Bool.toNat_false]
    omega
  | true => exact beq_iff_eq

/-- R99, items 6 and 7: the fields that only SMUL has. -/
theorem bits_16_11_eq_zero_iff (c : Word) :
    bits c 16 11 = 0 ↔ fregField c 13 = 0 ∧ bits c 12 12 = 0 ∧ bits c 11 11 = 0 := by
  rw [bits_eq_zero_split c (mid := 12) (by decide) (by decide),
    bits_eq_zero_split c (hi := 12) (mid := 11) (by decide) (by decide), fregField_eq_zero_iff]

theorem bits_19_11_eq_zero_iff (c : Word) :
    bits c 19 11 = 0 ↔ pregField c 17 = 0 ∧ bits c 16 11 = 0 := by
  rw [bits_eq_zero_split c (mid := 16) (by decide) (by decide), pregField_eq_zero_iff]

/-! ### The fields of each format (R92, R93, R94) -/

/-- The fields of an F-format word (R92). -/
structure FieldsF (c : Word) (op : Nat) (rd rs1 rs2 rm : FReg) (msel : ModSel) : Prop where
  opcode : bits c 31 26 = op
  rd : fregField c 22 = rd
  rs1 : fregField c 18 = rs1
  rs2 : fregField c 14 = rs2
  rm : fregField c 10 = rm
  msel : bits c 9 8 = msel.code
  reserved : bits c 7 0 = 0

/-- The fields of a P-format word (R93). -/
structure FieldsP (c : Word) (op : Nat) (pd ps1 ps2 : PReg) (rk : FReg) (gsel chk : Bool) :
    Prop where
  opcode : bits c 31 26 = op
  pd : pregField c 23 = pd
  ps1 : pregField c 20 = ps1
  ps2 : pregField c 17 = ps2
  rk : fregField c 13 = rk
  gsel : bits c 12 12 = gsel.toNat
  chk : bits c 11 11 = chk.toNat
  reserved : bits c 10 0 = 0

/-- R92: the seven fields of the F format cover the word. -/
theorem toNat_eq_fieldsF (c : Word) :
    c.toNat = 2 ^ 26 * bits c 31 26 + (2 ^ 22 * bits c 25 22 + (2 ^ 18 * bits c 21 18
      + (2 ^ 14 * bits c 17 14 + (2 ^ 10 * bits c 13 10
        + (2 ^ 8 * bits c 9 8 + bits c 7 0))))) := by
  rw [bits_low, ← toNat_mod_eq c (by decide), ← toNat_mod_eq c (by decide),
    ← toNat_mod_eq c (by decide), ← toNat_mod_eq c (by decide), ← toNat_mod_eq c (by decide),
    ← toNat_mod_eq c (by decide)]
  exact (Nat.mod_eq_of_lt c.isLt).symm

/-- R93: the eight fields of the P format cover the word. -/
theorem toNat_eq_fieldsP (c : Word) :
    c.toNat = 2 ^ 26 * bits c 31 26 + (2 ^ 23 * bits c 25 23 + (2 ^ 20 * bits c 22 20
      + (2 ^ 17 * bits c 19 17 + (2 ^ 13 * bits c 16 13 + (2 ^ 12 * bits c 12 12
        + (2 ^ 11 * bits c 11 11 + bits c 10 0)))))) := by
  rw [bits_low, ← toNat_mod_eq c (by decide), ← toNat_mod_eq c (by decide),
    ← toNat_mod_eq c (by decide), ← toNat_mod_eq c (by decide), ← toNat_mod_eq c (by decide),
    ← toNat_mod_eq c (by decide), ← toNat_mod_eq c (by decide)]
  exact (Nat.mod_eq_of_lt c.isLt).symm

/-- R102: `encF` inverts the field table of R92. -/
theorem encF_eq_iff {c : Word} {op : Nat} (hop : op < 64) {rd rs1 rs2 rm : FReg} {msel : ModSel} :
    encF op rd rs1 rs2 rm msel = c ↔ FieldsF c op rd rs1 rs2 rm msel := by
  have hm : msel.code ≤ 2 := by cases msel <;> decide
  rw [← BitVec.toNat_inj, toNat_encF op hop]
  constructor
  · intro h
    constructor <;> simp only [fregField_eq_iff, bits] <;> omega
  · rintro ⟨hopc, hrd, hrs1, hrs2, hrm, hmsel, hres⟩
    rw [fregField_eq_iff] at hrd hrs1 hrs2 hrm
    rw [toNat_eq_fieldsF c, hopc, hrd, hrs1, hrs2, hrm, hmsel, hres]
    omega

/-- R102: `encP` inverts the field table of R93. -/
theorem encP_eq_iff {c : Word} {op : Nat} (hop : op < 64) {pd ps1 ps2 : PReg} {rk : FReg}
    {gsel chk : Bool} :
    encP op pd ps1 ps2 rk gsel chk = c ↔ FieldsP c op pd ps1 ps2 rk gsel chk := by
  have hg : gsel.toNat ≤ 1 := Bool.toNat_le gsel
  have hc : chk.toNat ≤ 1 := Bool.toNat_le chk
  rw [← BitVec.toNat_inj, toNat_encP op hop]
  constructor
  · intro h
    constructor <;> simp only [fregField_eq_iff, pregField_eq_iff, bits] <;> omega
  · rintro ⟨hopc, hpd, hps1, hps2, hrk, hgsel, hchk, hres⟩
    rw [pregField_eq_iff] at hpd hps1 hps2
    rw [fregField_eq_iff] at hrk
    rw [toNat_eq_fieldsP c, hopc, hpd, hps1, hps2, hrk, hgsel, hchk, hres]
    omega

/-- R94: the one NOP word. -/
theorem encN_eq_iff {c : Word} : encN = c ↔ bits c 31 26 = 0 ∧ bits c 25 0 = 0 := by
  rw [← BitVec.toNat_inj, encN, BitVec.toNat_ofNat]
  simp only [bits]
  omega

/-! ### The decoder's checks (R95, R99) -/

/-- A word behind a check that rejects it is read only past the check. -/
theorem check_eq_ok_iff {P : Prop} [Decidable P] {e : IllegalWord} {r : Except IllegalWord Instr}
    {i : Instr} : (if P then r else .error e) = .ok i ↔ P ∧ r = .ok i := by
  split <;> simp_all

theorem decodeMsel_eq_ok_iff {n : Nat} {msel : ModSel} :
    decodeMsel n = .ok msel ↔ n = msel.code := by
  match n with
  | 0 | 1 | 2 => cases msel <;> decide
  | n + 3 => cases msel <;> simp [decodeMsel, ModSel.code]

/-- The modulus fields are decoded exactly when the reserved bits are 0, `msel` is no reserved code and
`rm` is 0 where `msel` selects no register (R99, items 2 to 4). -/
theorem decodeModulus_eq_ok_iff {c : Word} {mk : FReg → ModSel → Instr} {i : Instr} :
    decodeModulus c mk = .ok i ↔ ∃ msel, bits c 7 0 = 0 ∧ bits c 9 8 = msel.code
      ∧ modulusFieldsOk (fregField c 10) msel = true ∧ mk (fregField c 10) msel = i := by
  simp only [← decodeMsel_eq_ok_iff]
  rw [decodeModulus, check_eq_ok_iff]
  split
  · simp_all
  · simp_all [check_eq_ok_iff]

theorem FieldsF.decodeModulus {c : Word} {op : Nat} {rd rs1 rs2 rm : FReg} {msel : ModSel}
    (h : FieldsF c op rd rs1 rs2 rm msel) (hok : modulusFieldsOk rm msel = true)
    (mk : FReg → ModSel → Instr) : decodeModulus c mk = .ok (mk rm msel) := by
  obtain ⟨-, -, -, -, rfl, hmsel, hres⟩ := h
  exact decodeModulus_eq_ok_iff.2 ⟨msel, hres, hmsel, hok, rfl⟩

/-- R99, items 3 and 4, as conditions of the word. -/
theorem exists_msel_iff (c : Word) :
    (∃ msel : ModSel, bits c 9 8 = msel.code ∧ modulusFieldsOk (fregField c 10) msel = true)
      ↔ bits c 9 8 ≠ 3 ∧ (bits c 9 8 ≠ 0 → bits c 13 10 = 0) := by
  have hlt : bits c 9 8 < 4 := bits_lt c 9 8
  rw [← fregField_eq_zero_iff c 10]
  constructor
  · rintro ⟨msel, hcode, hok⟩
    cases msel <;> simp_all [ModSel.code, modulusFieldsOk]
  · rintro ⟨h3, hrm⟩
    obtain h | h | h : bits c 9 8 = 0 ∨ bits c 9 8 = 1 ∨ bits c 9 8 = 2 := by omega
    · exact ⟨.freg, h, rfl⟩
    · exact ⟨.curveP, h, by simp [modulusFieldsOk, hrm, h]⟩
    · exact ⟨.curveN, h, by simp [modulusFieldsOk, hrm, h]⟩

/-! ### Decoding and encoding are inverses (R102) -/

/-- Settles O13: each branch of the decoder has read every field of the word, and the fields cover the
word. -/
theorem encodeOfDecode : Obligations.EncodeOfDecode := by
  intro c i h
  unfold decode at h
  split at h <;>
    simp only [check_eq_ok_iff, decodeModulus_eq_ok_iff, Except.ok.injEq, reduceCtorEq] at h
  case h_1 hop =>
    obtain ⟨hres, rfl⟩ := h
    exact ⟨rfl, encN_eq_iff.2 ⟨hop, hres⟩⟩
  case h_2 hop | h_3 hop | h_4 hop =>
    obtain ⟨msel, hres, hmsel, hok, rfl⟩ := h
    exact ⟨hok, (encF_eq_iff (by decide)).2 ⟨hop, rfl, rfl, rfl, rfl, hmsel, hres⟩⟩
  case h_5 hop =>
    obtain ⟨hrs2, msel, hres, hmsel, hok, rfl⟩ := h
    have hrs2 := (fregField_eq_zero_iff c 14).2 hrs2
    exact ⟨hok, (encF_eq_iff (by decide)).2 ⟨hop, rfl, rfl, hrs2, rfl, hmsel, hres⟩⟩
  case h_6 hop =>
    obtain ⟨hres, hsmul, rfl⟩ := h
    obtain ⟨hrk, hgsel, hchk⟩ := (bits_16_11_eq_zero_iff c).1 hsmul
    exact ⟨rfl, (encP_eq_iff (by decide)).2 ⟨hop, rfl, rfl, rfl, hrk, hgsel, hchk, hres⟩⟩
  case h_7 hop =>
    obtain ⟨hres, hunused, rfl⟩ := h
    obtain ⟨hps2, hsmul⟩ := (bits_19_11_eq_zero_iff c).1 hunused
    obtain ⟨hrk, hgsel, hchk⟩ := (bits_16_11_eq_zero_iff c).1 hsmul
    exact ⟨rfl, (encP_eq_iff (by decide)).2 ⟨hop, rfl, rfl, hps2, hrk, hgsel, hchk, hres⟩⟩
  case h_8 hop =>
    obtain ⟨hres, hps2, hok, rfl⟩ := h
    have hps2 := (pregField_eq_zero_iff c 17).2 hps2
    have hgsel := (bit_eq_iff c 12 _).1 rfl
    have hchk := (bit_eq_iff c 11 _).1 rfl
    exact ⟨hok, (encP_eq_iff (by decide)).2 ⟨hop, rfl, rfl, hps2, rfl, hgsel, hchk, hres⟩⟩

/-- Settles O12: the word has the fields of its command, and the decoder reads them field by field. -/
theorem decodeOfEncode : Obligations.DecodeOfEncode := by
  intro i hok
  generalize hc : encode i = c
  unfold decode
  cases i with
  | nop =>
    obtain ⟨hop, hres⟩ := encN_eq_iff.1 hc
    simp only [hop, hres, if_true]
  | montmul rd rs1 rs2 rm msel | barrett rd rs1 rs2 rm msel | modexp rd rs1 rs2 rm msel =>
    have h := (encF_eq_iff (by decide)).1 hc
    simp only [h.opcode, h.decodeModulus hok, h.rd, h.rs1, h.rs2]
  | modinv rd rs1 rm msel =>
    have h := (encF_eq_iff (by decide)).1 hc
    have hrs2 := (fregField_eq_zero_iff c 14).1 h.rs2
    simp only [h.opcode, hrs2, if_true, h.decodeModulus hok, h.rd, h.rs1]
  | padd pd ps1 ps2 =>
    have h := (encP_eq_iff (by decide)).1 hc
    have hsmul := (bits_16_11_eq_zero_iff c).2 ⟨h.rk, h.gsel, h.chk⟩
    simp only [h.opcode, h.reserved, hsmul, if_true, h.pd, h.ps1, h.ps2]
  | pdbl pd ps1 =>
    have h := (encP_eq_iff (by decide)).1 hc
    have hsmul := (bits_16_11_eq_zero_iff c).2 ⟨h.rk, h.gsel, h.chk⟩
    have hunused := (bits_19_11_eq_zero_iff c).2 ⟨h.ps2, hsmul⟩
    simp only [h.opcode, h.reserved, hunused, if_true, h.pd, h.ps1]
  | smul pd ps1 rk gsel chk =>
    have h := (encP_eq_iff (by decide)).1 hc
    have hps2 := (pregField_eq_zero_iff c 17).1 h.ps2
    have hgsel := (bit_eq_iff c 12 gsel).2 h.gsel
    have hchk := (bit_eq_iff c 11 chk).2 h.chk
    have hbase : baseFieldsOk ps1 gsel = true := hok
    simp only [h.opcode, h.reserved, hps2, hgsel, hchk, h.pd, h.ps1, h.rk, hbase, if_true]

/-- A word is read as a command exactly when the command is well formed and has that word. -/
theorem decode_eq_ok_iff {c : Word} {i : Instr} :
    decode c = .ok i ↔ i.wellFormed = true ∧ encode i = c :=
  ⟨encodeOfDecode c i, fun ⟨hok, hc⟩ => hc ▸ decodeOfEncode i hok⟩

/-! ### Which words are which command (R99) -/

/-- The conditions R99 puts on the reserved bits and the modulus fields of an F-format word. -/
def ModulusFieldsLegal (c : Word) : Prop :=
  bits c 7 0 = 0 ∧ bits c 9 8 ≠ 3 ∧ (bits c 9 8 ≠ 0 → bits c 13 10 = 0)

/-- A word is that of some F-format command with the second source `rs2` exactly when its opcode and `rs2`
are, and its modulus fields are legal. -/
theorem exists_encF_iff (c : Word) {op : Nat} (hop : op < 64) (rs2 : FReg) :
    (∃ rd rs1 rm msel, modulusFieldsOk rm msel = true ∧ encF op rd rs1 rs2 rm msel = c)
      ↔ bits c 31 26 = op ∧ fregField c 14 = rs2 ∧ ModulusFieldsLegal c := by
  simp only [encF_eq_iff hop, ModulusFieldsLegal, ← exists_msel_iff]
  constructor
  · rintro ⟨rd, rs1, rm, msel, hok, h⟩
    exact ⟨h.opcode, h.rs2, h.reserved, msel, h.msel, h.rm ▸ hok⟩
  · rintro ⟨hopc, hrs2, hres, msel, hmsel, hok⟩
    exact ⟨_, _, _, msel, hok, hopc, rfl, rfl, hrs2, rfl, hmsel, hres⟩

theorem exists_encF_iff_of_rs2_free (c : Word) {op : Nat} (hop : op < 64) :
    (∃ rd rs1 rs2 rm msel, modulusFieldsOk rm msel = true ∧ encF op rd rs1 rs2 rm msel = c)
      ↔ bits c 31 26 = op ∧ ModulusFieldsLegal c := by
  constructor
  · rintro ⟨rd, rs1, rs2, rm, msel, h⟩
    obtain ⟨hopc, -, hlegal⟩ := (exists_encF_iff c hop rs2).1 ⟨rd, rs1, rm, msel, h⟩
    exact ⟨hopc, hlegal⟩
  · rintro ⟨hopc, hlegal⟩
    obtain ⟨rd, rs1, rm, msel, h⟩ := (exists_encF_iff c hop _).2 ⟨hopc, rfl, hlegal⟩
    exact ⟨rd, rs1, _, rm, msel, h⟩

theorem decode_nop_iff (c : Word) :
    decode c = .ok .nop ↔ bits c 31 26 = 0x00 ∧ bits c 25 0 = 0 := by
  rw [decode_eq_ok_iff, ← encN_eq_iff]
  exact and_iff_right rfl

theorem decode_montmul_iff (c : Word) :
    (∃ rd rs1 rs2 rm msel, decode c = .ok (.montmul rd rs1 rs2 rm msel))
      ↔ bits c 31 26 = 0x01 ∧ ModulusFieldsLegal c := by
  simp only [decode_eq_ok_iff]
  exact exists_encF_iff_of_rs2_free c (by decide)

theorem decode_barrett_iff (c : Word) :
    (∃ rd rs1 rs2 rm msel, decode c = .ok (.barrett rd rs1 rs2 rm msel))
      ↔ bits c 31 26 = 0x02 ∧ ModulusFieldsLegal c := by
  simp only [decode_eq_ok_iff]
  exact exists_encF_iff_of_rs2_free c (by decide)

theorem decode_modexp_iff (c : Word) :
    (∃ rd rs1 rs2 rm msel, decode c = .ok (.modexp rd rs1 rs2 rm msel))
      ↔ bits c 31 26 = 0x03 ∧ ModulusFieldsLegal c := by
  simp only [decode_eq_ok_iff]
  exact exists_encF_iff_of_rs2_free c (by decide)

theorem decode_modinv_iff (c : Word) :
    (∃ rd rs1 rm msel, decode c = .ok (.modinv rd rs1 rm msel))
      ↔ bits c 31 26 = 0x04 ∧ bits c 17 14 = 0 ∧ ModulusFieldsLegal c := by
  simp only [decode_eq_ok_iff, ← fregField_eq_zero_iff c 14]
  exact exists_encF_iff c (by decide) 0

theorem decode_padd_iff (c : Word) :
    (∃ pd ps1 ps2, decode c = .ok (.padd pd ps1 ps2))
      ↔ bits c 31 26 = 0x08 ∧ bits c 16 0 = 0 := by
  rw [bits_eq_zero_split c (mid := 10) (by decide) (by decide), bits_16_11_eq_zero_iff]
  simp only [decode_eq_ok_iff, encode, encP_eq_iff (show 0x08 < 64 by decide)]
  constructor
  · rintro ⟨pd, ps1, ps2, -, h⟩
    exact ⟨h.opcode, ⟨h.rk, h.gsel, h.chk⟩, h.reserved⟩
  · rintro ⟨hop, ⟨hrk, hgsel, hchk⟩, hres⟩
    exact ⟨_, _, _, rfl, hop, rfl, rfl, rfl, hrk, hgsel, hchk, hres⟩

theorem decode_pdbl_iff (c : Word) :
    (∃ pd ps1, decode c = .ok (.pdbl pd ps1))
      ↔ bits c 31 26 = 0x09 ∧ bits c 19 0 = 0 := by
  rw [bits_eq_zero_split c (mid := 10) (by decide) (by decide), bits_19_11_eq_zero_iff,
    bits_16_11_eq_zero_iff]
  simp only [decode_eq_ok_iff, encode, encP_eq_iff (show 0x09 < 64 by decide)]
  constructor
  · rintro ⟨pd, ps1, -, h⟩
    exact ⟨h.opcode, ⟨h.ps2, h.rk, h.gsel, h.chk⟩, h.reserved⟩
  · rintro ⟨hop, ⟨hps2, hrk, hgsel, hchk⟩, hres⟩
    exact ⟨_, _, rfl, hop, rfl, rfl, hps2, hrk, hgsel, hchk, hres⟩

theorem baseFieldsOk_iff (c : Word) {gsel : Bool} (h : bits c 12 12 = gsel.toNat) :
    baseFieldsOk (pregField c 20) gsel = true ↔ (bits c 12 12 = 1 → bits c 22 20 = 0) := by
  rw [← pregField_eq_zero_iff c 20, h]
  cases gsel <;> simp [baseFieldsOk]

theorem decode_smul_iff (c : Word) :
    (∃ pd ps1 rk gsel chk, decode c = .ok (.smul pd ps1 rk gsel chk))
      ↔ bits c 31 26 = 0x0A ∧ bits c 19 17 = 0 ∧ bits c 10 0 = 0
        ∧ (bits c 12 12 = 1 → bits c 22 20 = 0) := by
  simp only [decode_eq_ok_iff, encode, encP_eq_iff (show 0x0A < 64 by decide),
    ← pregField_eq_zero_iff c 17]
  constructor
  · rintro ⟨pd, ps1, rk, gsel, chk, hok, h⟩
    exact ⟨h.opcode, h.ps2, h.reserved, (baseFieldsOk_iff c h.gsel).1 (h.ps1 ▸ hok)⟩
  · rintro ⟨hop, hps2, hres, hbase⟩
    have hgsel := (bit_eq_iff c 12 _).1 rfl
    exact ⟨_, _, _, _, _, (baseFieldsOk_iff c hgsel).2 hbase, hop, rfl, rfl, hps2, rfl, hgsel,
      (bit_eq_iff c 11 _).1 rfl, hres⟩

/-! ### The legal words (R100) -/

theorem exists_instr_iff {P : Instr → Prop} :
    (∃ i, P i) ↔ P .nop
      ∨ (∃ rd rs1 rs2 rm msel, P (.montmul rd rs1 rs2 rm msel))
      ∨ (∃ rd rs1 rs2 rm msel, P (.barrett rd rs1 rs2 rm msel))
      ∨ (∃ rd rs1 rs2 rm msel, P (.modexp rd rs1 rs2 rm msel))
      ∨ (∃ rd rs1 rm msel, P (.modinv rd rs1 rm msel))
      ∨ (∃ pd ps1 ps2, P (.padd pd ps1 ps2))
      ∨ (∃ pd ps1, P (.pdbl pd ps1))
      ∨ (∃ pd ps1 rk gsel chk, P (.smul pd ps1 rk gsel chk)) := by
  constructor
  · rintro ⟨i, h⟩
    cases i with
    | nop => exact .inl h
    | montmul => exact .inr (.inl ⟨_, _, _, _, _, h⟩)
    | barrett => exact .inr (.inr (.inl ⟨_, _, _, _, _, h⟩))
    | modexp => exact .inr (.inr (.inr (.inl ⟨_, _, _, _, _, h⟩)))
    | modinv => exact .inr (.inr (.inr (.inr (.inl ⟨_, _, _, _, h⟩))))
    | padd => exact .inr (.inr (.inr (.inr (.inr (.inl ⟨_, _, _, h⟩)))))
    | pdbl => exact .inr (.inr (.inr (.inr (.inr (.inr (.inl ⟨_, _, h⟩))))))
    | smul => exact .inr (.inr (.inr (.inr (.inr (.inr (.inr ⟨_, _, _, _, _, h⟩))))))
  · rintro (h | ⟨_, _, _, _, _, h⟩ | ⟨_, _, _, _, _, h⟩ | ⟨_, _, _, _, _, h⟩ | ⟨_, _, _, _, h⟩
      | ⟨_, _, _, h⟩ | ⟨_, _, h⟩ | ⟨_, _, _, _, _, h⟩) <;> exact ⟨_, h⟩

/-- R100 writes the clauses of the four F-format commands as one. -/
theorem fieldCommands_iff (c : Word) :
    (bits c 31 26 = 0x01 ∧ ModulusFieldsLegal c) ∨ (bits c 31 26 = 0x02 ∧ ModulusFieldsLegal c)
        ∨ (bits c 31 26 = 0x03 ∧ ModulusFieldsLegal c)
        ∨ (bits c 31 26 = 0x04 ∧ bits c 17 14 = 0 ∧ ModulusFieldsLegal c)
      ↔ (bits c 31 26 = 0x01 ∨ bits c 31 26 = 0x02 ∨ bits c 31 26 = 0x03 ∨ bits c 31 26 = 0x04)
        ∧ bits c 7 0 = 0 ∧ bits c 9 8 ≠ 3 ∧ (bits c 9 8 = 0 ∨ bits c 13 10 = 0)
        ∧ (bits c 31 26 ≠ 0x04 ∨ bits c 17 14 = 0) := by
  rw [ModulusFieldsLegal]
  omega

/-- Settles O14: a word decodes exactly when it is that of one of the eight mnemonics. -/
theorem legalWordsDecode : Obligations.LegalWordsDecode := by
  intro c
  have hbase : (bits c 12 12 = 1 → bits c 22 20 = 0) ↔ bits c 12 12 = 0 ∨ bits c 22 20 = 0 := by
    have hbit : bits c 12 12 < 2 := bits_lt c 12 12
    omega
  rw [exists_instr_iff, decode_nop_iff, decode_montmul_iff, decode_barrett_iff, decode_modexp_iff,
    decode_modinv_iff, decode_padd_iff, decode_pdbl_iff, decode_smul_iff, hbase,
    ← fieldCommands_iff]
  simp only [or_assoc]

/-! ### Mask and match (R101) -/

/-- The mask of the field `[hi:lo]`. -/
def fieldMask (hi lo : Nat) : Word := BitVec.ofNat 32 ((2 ^ (hi + 1 - lo) - 1) <<< lo)

/-- Under the mask of a field a word keeps that field, at its place. -/
theorem and_fieldMask (c : Word) (hi lo : Nat) :
    c &&& fieldMask hi lo = BitVec.ofNat 32 (bits c hi lo <<< lo) := by
  refine BitVec.eq_of_getLsbD_eq fun i hi' => ?_
  simp only [fieldMask, bits, BitVec.getLsbD_and, BitVec.getLsbD_ofNat, Nat.testBit_shiftLeft,
    Nat.testBit_two_pow_sub_one, Nat.testBit_mod_two_pow, Nat.testBit_div_two_pow]
  by_cases h : lo ≤ i
  · rw [Nat.sub_add_cancel h, BitVec.testBit_toNat]
    simp only [h, hi', decide_true, Bool.true_and, Bool.and_comm]
  · simp [h]

/-- A word matches `v` under the mask of a field exactly when that field is `v`. -/
theorem and_fieldMask_eq_iff (c : Word) {hi lo v : Nat} (hlo : lo ≤ hi) (hhi : hi < 32)
    (hv : v < 2 ^ (hi + 1 - lo)) :
    c &&& fieldMask hi lo = BitVec.ofNat 32 (v <<< lo) ↔ bits c hi lo = v := by
  have hfit : ∀ {x}, x < 2 ^ (hi + 1 - lo) → x <<< lo < 2 ^ 32 := fun {x} hx =>
    calc x <<< lo = x * 2 ^ lo := Nat.shiftLeft_eq x lo
      _ < 2 ^ (hi + 1 - lo) * 2 ^ lo := Nat.mul_lt_mul_of_pos_right hx (Nat.two_pow_pos lo)
      _ = 2 ^ (hi + 1) := by rw [← pow_add, Nat.sub_add_cancel (by omega)]
      _ ≤ 2 ^ 32 := Nat.pow_le_pow_right (by decide) hhi
  rw [and_fieldMask, ← BitVec.toNat_inj, BitVec.toNat_ofNat, BitVec.toNat_ofNat,
    Nat.mod_eq_of_lt (hfit (bits_lt c hi lo)), Nat.mod_eq_of_lt (hfit hv), Nat.shiftLeft_eq,
    Nat.shiftLeft_eq, Nat.mul_left_inj (Nat.two_pow_pos lo).ne']

theorem and_fieldMask_eq_zero_iff (c : Word) {hi lo : Nat} (hlo : lo ≤ hi) (hhi : hi < 32) :
    c &&& fieldMask hi lo = 0#32 ↔ bits c hi lo = 0 := by
  rw [← and_fieldMask_eq_iff c hlo hhi (Nat.two_pow_pos _), Nat.zero_shiftLeft]

/-- Under the masks `m` and `z` of disjoint bits, a word matches a `v` that has no bit of `z` exactly when
it matches it under `m` and has no bit of `z` either. -/
theorem and_or_eq_iff (c : Word) {m z v : Word} (hmz : m &&& z = 0#32) (hv : v &&& m = v) :
    c &&& (m ||| z) = v ↔ c &&& m = v ∧ c &&& z = 0#32 := by
  have hm : (m ||| z) &&& m = m := by
    rw [BitVec.and_comm, BitVec.and_or_distrib_left, BitVec.and_self, hmz, BitVec.or_zero]
  have hz : (m ||| z) &&& z = z := by
    rw [BitVec.and_comm, BitVec.and_or_distrib_left, BitVec.and_self, BitVec.and_comm z m, hmz,
      BitVec.zero_or]
  have hvz : v &&& z = 0#32 := by rw [← hv, BitVec.and_assoc, hmz, BitVec.and_zero]
  constructor
  · intro h
    rw [← hm, ← hz, ← BitVec.and_assoc, ← BitVec.and_assoc, hz, h]
    exact ⟨hv, hvz⟩
  · rintro ⟨hcm, hcz⟩
    rw [BitVec.and_or_distrib_left, hcm, hcz, BitVec.or_zero]

/-- A word matches the opcode `op` under a row's mask exactly when it has that opcode and no bit of the
mask's part `z` below the opcode. -/
theorem and_rowMask_eq_iff (c : Word) {op : Nat} (hop : op < 64) {z : Word}
    (hz : fieldMask 31 26 &&& z = 0#32) :
    c &&& (fieldMask 31 26 ||| z) = BitVec.ofNat 32 (op <<< 26)
      ↔ bits c 31 26 = op ∧ c &&& z = 0#32 := by
  have hmask (c' : Word) :=
    and_fieldMask_eq_iff c' (hi := 31) (lo := 26) (by decide) (by decide) hop
  have hv : bits (BitVec.ofNat 32 (op <<< 26)) 31 26 = op := by
    rw [bits, BitVec.toNat_ofNat, Nat.shiftLeft_eq]
    omega
  rw [and_or_eq_iff c hz ((hmask _).2 hv), hmask]

/-- A row with the field `[hi:0]` under its mask (NOP, PADD, PDBL, and the F format with `hi = 7`). -/
theorem rowOfLowField_iff (c : Word) {op hi : Nat} (hop : op < 64) (hhi : hi < 32)
    (hz : fieldMask 31 26 &&& fieldMask hi 0 = 0#32) :
    bits c 31 26 = op ∧ bits c hi 0 = 0
      ↔ c &&& (fieldMask 31 26 ||| fieldMask hi 0) = BitVec.ofNat 32 (op <<< 26) := by
  rw [and_rowMask_eq_iff c hop hz, and_fieldMask_eq_zero_iff c (Nat.zero_le hi) hhi]

/-- A row with the fields `[hi:lo]` and `[low:0]` under its mask (MODINV, SMUL). -/
theorem rowOfTwoFields_iff (c : Word) {op hi lo low : Nat} (hop : op < 64) (hlo : lo ≤ hi)
    (hhi : hi < 32) (hlow : low < 32)
    (hz : fieldMask 31 26 &&& (fieldMask hi lo ||| fieldMask low 0) = 0#32)
    (hdisj : fieldMask hi lo &&& fieldMask low 0 = 0#32) :
    bits c 31 26 = op ∧ bits c hi lo = 0 ∧ bits c low 0 = 0
      ↔ c &&& (fieldMask 31 26 ||| (fieldMask hi lo ||| fieldMask low 0))
        = BitVec.ofNat 32 (op <<< 26) := by
  rw [and_rowMask_eq_iff c hop hz, and_or_eq_iff c hdisj BitVec.zero_and,
    and_fieldMask_eq_zero_iff c hlo hhi, and_fieldMask_eq_zero_iff c (Nat.zero_le low) hlow]

theorem fieldRow_iff (c : Word) {op : Nat} (hop : op < 64) :
    bits c 31 26 = op ∧ ModulusFieldsLegal c
      ↔ c &&& 0xFC0000FF#32 = BitVec.ofNat 32 (op <<< 26)
        ∧ bits c 9 8 ≠ 3 ∧ (bits c 9 8 ≠ 0 → bits c 13 10 = 0) := by
  rw [ModulusFieldsLegal, ← and_assoc]
  exact and_congr_left' (rowOfLowField_iff c hop (hi := 7) (by decide) (by decide))

theorem modinvRow_iff (c : Word) :
    bits c 31 26 = 0x04 ∧ bits c 17 14 = 0 ∧ ModulusFieldsLegal c
      ↔ c &&& 0xFC03C0FF#32 = 0x10000000#32
        ∧ bits c 9 8 ≠ 3 ∧ (bits c 9 8 ≠ 0 → bits c 13 10 = 0) := by
  rw [ModulusFieldsLegal, ← and_assoc (b := bits c 7 0 = 0), ← and_assoc]
  exact and_congr_left' (rowOfTwoFields_iff c (op := 0x04) (hi := 17) (lo := 14) (low := 7)
    (by decide) (by decide) (by decide) (by decide) (by decide) (by decide))

theorem smulRow_iff (c : Word) :
    bits c 31 26 = 0x0A ∧ bits c 19 17 = 0 ∧ bits c 10 0 = 0
        ∧ (bits c 12 12 = 1 → bits c 22 20 = 0)
      ↔ c &&& 0xFC0E07FF#32 = 0x28000000#32 ∧ (bits c 12 12 = 1 → bits c 22 20 = 0) := by
  rw [← and_assoc (b := bits c 10 0 = 0), ← and_assoc]
  exact and_congr_left' (rowOfTwoFields_iff c (op := 0x0A) (hi := 19) (lo := 17) (low := 10)
    (by decide) (by decide) (by decide) (by decide) (by decide) (by decide))

/-- Settles O15: each row's mask covers the opcode and the bits that are 0 in the mnemonic's words. -/
theorem maskAndMatchSelectTheCommand : Obligations.MaskAndMatchSelectTheCommand := fun c =>
  ⟨(decode_nop_iff c).trans
      (rowOfLowField_iff c (op := 0x00) (hi := 25) (by decide) (by decide) (by decide)),
    (decode_montmul_iff c).trans (fieldRow_iff c (by decide)),
    (decode_barrett_iff c).trans (fieldRow_iff c (by decide)),
    (decode_modexp_iff c).trans (fieldRow_iff c (by decide)),
    (decode_modinv_iff c).trans (modinvRow_iff c),
    (decode_padd_iff c).trans
      (rowOfLowField_iff c (op := 0x08) (hi := 16) (by decide) (by decide) (by decide)),
    (decode_pdbl_iff c).trans
      (rowOfLowField_iff c (op := 0x09) (hi := 19) (by decide) (by decide) (by decide)),
    (decode_smul_iff c).trans (smulRow_iff c)⟩

/-! ### Illegal words (R99, R201) -/

/-- R213: taking an error reports its code and writes no data register. -/
theorem raise_failed (s : State) (code : ErrCode) : Failed s (s.raise code) code :=
  ⟨raise_status s code, raise_frame s code⟩

/-- The step at the engine's turn, wherever that stands in the order of events. -/
theorem step_of_engineIsNext {s : State} {rest : List Event} (h : EngineIsNext s rest) :
    step s = engineTurn (s.setPending rest) := by
  obtain ⟨hp | ⟨hp, rfl⟩, hadm⟩ := h
  · exact step_of_pending_cons hadm hp
  · rw [step_of_pending_nil hadm hp, show s.setPending [] = s by rw [← hp]; rfl]

/-- R201: a pending word that is no command completes with ILLEGAL_OP. -/
theorem step_illegal {s : State} {rest : List Event} (h : EngineIsNext s rest)
    (hb : s.status.busy = true) (hc : ¬ ∃ i, decode s.cmdlat = .ok i) :
    ∃ t, step s = .next t ∧ Failed (s.setPending rest) t .illegalOp := by
  cases hd : decode s.cmdlat with
  | ok i => exact absurd ⟨i, hd⟩ hc
  | error e =>
    have hturn := engineTurn_illegal (s := s.setPending rest) hb hd
    exact ⟨_, (step_of_engineIsNext h).trans hturn, raise_failed _ _⟩

/-- Settles O22: each item contradicts the clause of R100 for its opcode. -/
theorem illegalWordsReportIllegalOp : Obligations.IllegalWordsReportIllegalOp := by
  intro s rest h hb hitem
  refine step_illegal h hb ?_
  rw [legalWordsDecode]
  have hpadd : bits s.cmdlat 16 0 = 0 ↔ bits s.cmdlat 16 11 = 0 ∧ bits s.cmdlat 10 0 = 0 :=
    bits_eq_zero_split _ (by decide) (by decide)
  have hpdbl : bits s.cmdlat 19 0 = 0 ↔ bits s.cmdlat 19 11 = 0 ∧ bits s.cmdlat 10 0 = 0 :=
    bits_eq_zero_split _ (by decide) (by decide)
  simp only [List.mem_cons, List.not_mem_nil, or_false] at hitem
  rw [hpadd, hpdbl]
  omega

/-- Settles O16: the decoder evaluated on each word. -/
theorem workedEncodingsDecode : Obligations.WorkedEncodingsDecode :=
  ⟨rfl, rfl, rfl, rfl, rfl, rfl, rfl, rfl⟩

end Sys2Proof.Proofs

/-! The field commands (40_field_arithmetic.md): inverses and Montgomery products modulo `m`, the loop of MODEXP,
and what each field command leaves when its modulus passes the check. -/

namespace Sys2Proof.Proofs

open Sys2Proof.Machine

/-! ### Inverses modulo `m` (R11) -/

/-- R11, on a number that is not negative: `inv_m(a)` is an inverse of `a` modulo `m`. -/
theorem mul_invMod_modEq {a m : Nat} (hm : 0 < m) (h : Nat.Coprime a m) :
    a * invMod a m ≡ 1 [MOD m] := by
  have hinv := invMod_mul_modEq (a : Int) hm (by rwa [Int.gcd_natCast_natCast])
  rw [mul_comm]
  exact Int.natCast_modEq_iff.1 (by exact_mod_cast hinv)

/-- R11: an inverse in `[0, m)` is the inverse. -/
theorem eq_invMod {a x m : Nat} (hx : x < m) (h : a * x ≡ 1 [MOD m]) : x = invMod a m := by
  have hm : 0 < m := Nat.zero_lt_of_lt hx
  have ha : Nat.Coprime a m := Nat.coprime_of_mul_modEq_one x h
  have hmod : x ≡ invMod a m [MOD m] :=
    Nat.ModEq.cancel_left_of_coprime ha.symm (h.trans (mul_invMod_modEq hm ha).symm)
  exact hmod.eq_of_lt_of_lt hx (invMod_lt _ hm)

/-! ### The Montgomery product (R121, R123) -/

/-- R121: the radix is a unit modulo every odd number. -/
theorem radix_coprime {m : Nat} (hm : m % 2 = 1) : Nat.Coprime radix m :=
  Nat.Coprime.pow_left 256 (Nat.coprime_two_left.2 (Nat.odd_iff.2 hm))

theorem montProduct_lt (a b : Nat) {m : Nat} (hm : 0 < m) : montProduct a b m < m :=
  Nat.mod_lt _ hm

/-- R121: the Montgomery product times the radix is the product of the operands. -/
theorem montProduct_mul_radix (a b : Nat) {m : Nat} (hm : m % 2 = 1) :
    montProduct a b m * radix ≡ a * b [MOD m] :=
  calc montProduct a b m * radix
      ≡ a * b * invMod radix m * radix [MOD m] := (Nat.mod_modEq _ m).mul_right radix
    _ = a * b * (radix * invMod radix m) := by ring
    _ ≡ a * b * 1 [MOD m] := (mul_invMod_modEq (by omega) (radix_coprime hm)).mul_left (a * b)
    _ = a * b := mul_one _

/-- R121: the Montgomery product is the one value below `m` that the radix multiplies to `a * b`. -/
theorem montProduct_eq_of_modEq {a b c m : Nat} (hm : m % 2 = 1) (h : a * b ≡ c * radix [MOD m]) :
    montProduct a b m = c % m := by
  have hmod : montProduct a b m ≡ c [MOD m] :=
    Nat.ModEq.cancel_right_of_coprime (radix_coprime hm).symm ((montProduct_mul_radix a b hm).trans h)
  rwa [Nat.ModEq, Nat.mod_eq_of_lt (montProduct_lt a b (by omega))] at hmod

/-- Settles O30: the first two identities by the characterisation of the product, the third by its
definition. -/
theorem montgomeryDomain : Obligations.MontgomeryDomain := by
  intro m x y _ hodd
  refine ⟨montProduct_eq_of_modEq hodd ?_, montProduct_eq_of_modEq hodd ?_, ?_⟩
  · calc x * radix % m * (y * radix % m)
        ≡ x * radix * (y * radix) [MOD m] := (Nat.mod_modEq _ m).mul (Nat.mod_modEq _ m)
      _ = x * y * radix * radix := by ring
  · calc x * (radix ^ 2 % m)
        ≡ x * radix ^ 2 [MOD m] := (Nat.mod_modEq _ m).mul_left x
      _ = x * radix * radix := by ring
  · rw [montProduct, mul_one]

/-! ### The loop of MODEXP (R130, R131) -/

/-- R130: one turn of the loop, squaring and multiplying where the bit of the exponent is set, goes from the
power by the bits above `i` to the power by the bits from `i` on. -/
theorem powLoop_turn (g e m i : Nat) :
    powLoop g e m (i + 1) (g ^ (e / 2 ^ (i + 1)) % m) = powLoop g e m i (g ^ (e / 2 ^ i) % m) := by
  have hhalf : e / 2 ^ (i + 1) = e / 2 ^ i / 2 := by rw [pow_succ, Nat.div_div_eq_div_mul]
  have hsq (q : Nat) : g ^ q % m * (g ^ q % m) % m = g ^ (2 * q) % m := by
    rw [← Nat.mul_mod, ← pow_add, two_mul]
  rw [powLoop_succ, hhalf, hsq, Nat.testBit_eq_decide_div_mod_eq]
  congr 1
  by_cases hbit : e / 2 ^ i % 2 = 1
  · rw [if_pos (by simpa using hbit), Nat.mod_mul_mod, ← pow_succ,
      show 2 * (e / 2 ^ i / 2) + 1 = e / 2 ^ i by omega]
  · rw [if_neg (by simpa using hbit), show 2 * (e / 2 ^ i / 2) = e / 2 ^ i by omega]

/-- R130: from the power by the bits above, the loop over the bits that are left ends at the power. -/
theorem powLoop_eq (g e m i : Nat) : powLoop g e m i (g ^ (e / 2 ^ i) % m) = g ^ e % m := by
  induction i with
  | zero => rw [powLoop_zero, pow_zero, Nat.div_one]
  | succ i ih => rw [powLoop_turn, ih]

/-- R130: the loop over 256 bits computes the power by every 256-bit exponent. -/
theorem powMod_eq (g m : Nat) {e : Nat} (he : e < 2 ^ 256) : powMod g e m = g ^ e % m := by
  rw [powMod, ← powLoop_eq g e m 256, Nat.div_eq_of_lt he, pow_zero]

/-- Fermat's little theorem, with one factor split off. -/
theorem mul_pow_sub_two_modEq {m g : Nat} (hm : Nat.Prime m) (hg : g % m ≠ 0) :
    g * g ^ (m - 2) ≡ 1 [MOD m] := by
  have hcop : Nat.Coprime g m :=
    ((Nat.Prime.coprime_iff_not_dvd hm).2 fun hd => hg (Nat.mod_eq_zero_of_dvd hd)).symm
  have hexp : m - 2 + 1 = m - 1 := by have := hm.two_le; omega
  rw [← pow_succ', hexp, ← Nat.totient_prime hm]
  exact Nat.ModEq.pow_totient hcop

/-- Settles O31: the power by `m - 2` is an inverse below `m`, and 0 where `m` divides a base that is raised
to at least the first power. -/
theorem fermatInverse : Obligations.FermatInverse := by
  intro m g hm hlt
  rw [powMod_eq g m (by omega)]
  refine ⟨fun hg => eq_invMod (Nat.mod_lt _ hm.pos) ?_, fun hg hne => ?_⟩
  · exact ((Nat.mod_modEq _ m).mul_left g).trans (mul_pow_sub_two_modEq hm hg)
  · have hexp : m - 2 ≠ 0 := by have := hm.two_le; omega
    exact Nat.mod_eq_zero_of_dvd (dvd_pow (Nat.dvd_of_mod_eq_zero hg) hexp)

/-! ### The results of the field commands past their checks (R120) -/

theorem montmulResult_of_odd (rd : FReg) (a b : Nat) {m : Nat} (hm : m % 2 = 1) :
    montmulResult rd a b m = .ok (.field rd (montProduct a b m)) := if_neg (by omega)

theorem barrettResult_of_pos (rd : FReg) (hi lo : Nat) {m : Nat} (hm : 1 ≤ m) :
    barrettResult rd hi lo m = .ok (.field rd (doubleReduce hi lo m)) := if_neg (by omega)

theorem modexpResult_of_odd (rd : FReg) (g e : Nat) {m : Nat} (hm : m % 2 = 1) :
    modexpResult rd g e m = .ok (.field rd (powMod g e m)) := if_neg (by omega)

theorem modinvResult_of_coprime (rd : FReg) {a m : Nat} (hm : 1 ≤ m) (h : Nat.gcd (a % m) m = 1) :
    modinvResult rd a m = .ok (.field rd (invMod a m)) :=
  (if_neg (by omega)).trans (if_neg (not_not.2 h))

theorem modinvResult_of_zero (rd : FReg) {a m : Nat} (hm : m = 0) :
    modinvResult rd a m = .error .invalidModulus := if_pos hm

theorem modinvResult_of_not_coprime (rd : FReg) {a m : Nat} (hm : m ≠ 0)
    (h : Nat.gcd (a % m) m ≠ 1) : modinvResult rd a m = .error .notInvertible :=
  (if_neg hm).trans (if_pos h)

/-! ### What a field command leaves (R120, R192) -/

/-- R95: a modulus stands in a register. -/
theorem modulus_lt (s : State) (rm : FReg) (msel : ModSel) : s.modulus rm msel < 2 ^ 256 := by
  cases msel <;> exact BitVec.isLt _

theorem natF_lt (s : State) (i : FReg) : s.natF i < 2 ^ 256 := BitVec.isLt _

/-- R192: a value that fits the destination is read back from it. -/
theorem natF_succeed_field (s : State) (rd : FReg) {v : Nat} (hv : v < 2 ^ 256) :
    (s.succeed (.field rd v)).natF rd = v := by
  rw [State.natF, readF_succeed_field, if_pos rfl, BitVec.toNat_ofNat, Nat.mod_eq_of_lt hv]

/-- R120: success with a field register as the destination writes nothing else. -/
theorem succeed_field_completedField (s : State) (rd : FReg) (v : Nat) :
    CompletedField s (s.succeed (.field rd v)) rd :=
  ⟨⟨succeed_status s _, succeed_frame s _⟩, rfl,
    fun j hj => (readF_succeed_field s rd j v).trans (if_neg hj)⟩

/-- R120: an instruction whose result is a value below its modulus completes with it in its destination. -/
theorem exists_next_completedField {i : Instr} {s : State} {r : Result} {rd rm : FReg} {msel : ModSel}
    {v : Nat} (hi : exec i s = s.finish r) (hr : r = .ok (.field rd v))
    (hv : v < s.modulus rm msel) :
    ∃ t, exec i s = .next t ∧ CompletedField s t rd ∧ t.natF rd = v := by
  subst hr
  exact ⟨_, hi, succeed_field_completedField s rd v,
    natF_succeed_field s rd (hv.trans (modulus_lt s rm msel))⟩

/-- Settles O24: the destination holds the Montgomery product. -/
theorem montmulResult : Obligations.MontmulResult := by
  intro s rd rs1 rs2 rm msel hm
  have hlt := montProduct_lt (s.natF rs1) (s.natF rs2) (m := s.modulus rm msel) (by omega)
  obtain ⟨t, ht, hfield, hv⟩ := exists_next_completedField (i := .montmul rd rs1 rs2 rm msel) rfl
    (montmulResult_of_odd rd (s.natF rs1) (s.natF rs2) hm) hlt
  refine ⟨t, ht, hfield, ?_, ?_⟩
  · rwa [hv]
  · rw [hv]
    exact montProduct_mul_radix (s.natF rs1) (s.natF rs2) hm

/-- Settles O25: the destination holds the reduced dividend. -/
theorem barrettResult : Obligations.BarrettResult := by
  intro s rd rs1 rs2 rm msel hm
  exact exists_next_completedField (i := .barrett rd rs1 rs2 rm msel) rfl
    (barrettResult_of_pos rd (s.natF rs1) (s.natF rs2) hm) (Nat.mod_lt _ hm)

/-- Settles O26: the destination holds what the loop of R130 computes, which is the power. -/
theorem modexpResult : Obligations.ModexpResult := by
  intro s rd rs1 rs2 rm msel hm
  have hr := modexpResult_of_odd rd (s.natF rs1) (s.natF rs2) hm
  rw [powMod_eq _ _ (natF_lt s rs2)] at hr
  exact exists_next_completedField (i := .modexp rd rs1 rs2 rm msel) rfl hr (Nat.mod_lt _ (by omega))

/-- Settles O27: the destination holds `inv_m(a)`. -/
theorem modinvResult : Obligations.ModinvResult := by
  intro s rd rs1 rm msel hm hgcd
  have hlt : invMod (s.natF rs1) (s.modulus rm msel) < s.modulus rm msel := invMod_lt _ hm
  have hcop : Nat.Coprime (s.natF rs1) (s.modulus rm msel) :=
    (Nat.mod_modEq _ _).gcd_eq.symm.trans hgcd
  obtain ⟨t, ht, hfield, hv⟩ := exists_next_completedField (i := .modinv rd rs1 rm msel) rfl
    (modinvResult_of_coprime rd hm hgcd) hlt
  refine ⟨t, ht, hfield, ?_, ?_⟩
  · rwa [hv]
  · rw [hv]
    exact mul_invMod_modEq hm hcop

/-- Settles O29: each failed check raises its code. -/
theorem modinvErrors : Obligations.ModinvErrors := by
  intro s rd rs1 rm msel
  refine ⟨fun hm => ⟨s.raise .invalidModulus, ?_, raise_failed s _⟩,
    fun hm hgcd => ⟨s.raise .notInvertible, ?_, raise_failed s _⟩⟩
  · exact congrArg s.finish (modinvResult_of_zero rd hm)
  · exact congrArg s.finish (modinvResult_of_not_coprime rd hm hgcd)

/-- Settles O32: `p` is a prime, so that O27 gives the inverse and `1 mod p` is 1. -/
theorem modinvByCurvePrime : Obligations.ModinvByCurvePrime := by
  intro s rd rs1 hc hcop
  obtain ⟨hp, -⟩ := hc
  have hgcd : Nat.gcd (s.natF rs1 % s.curve.p.toNat) s.curve.p.toNat = 1 :=
    (Nat.mod_modEq _ _).gcd_eq.trans hcop
  obtain ⟨t, ht, ⟨⟨hstatus, -⟩, -⟩, -, hinv⟩ := modinvResult s rd rs1 0 .curveP hp.pos hgcd
  exact ⟨t, ht, congrArg Status.errcode hstatus, hinv.trans (Nat.mod_eq_of_lt hp.one_lt)⟩

end Sys2Proof.Proofs

/-! The point commands PDBL and PADD (41_point_ops.md): the tangent and chord formulas, what each command
leaves on sources in range and out of range, and `add` as the group law of Mathlib's curves over the field
of `p` elements. -/

namespace Sys2Proof.Proofs

open Sys2Proof.Machine

/-! ### Arithmetic of R10 and R11 in the field of `p` elements -/

/-- R10: the reduced value is the representative of the number's residue class. -/
theorem modNat_eq_val (x : Int) (p : Nat) [NeZero p] : modNat x p = (x : ZMod p).val := by
  have h : ((modNat x p : Nat) : Int) = ((x : ZMod p).val : Int) := by
    rw [modNat_cast x (NeZero.pos p), ZMod.val_intCast]
  exact_mod_cast h

theorem cast_modNat (x : Int) (p : Nat) [NeZero p] : (modNat x p : ZMod p) = x := by
  rw [modNat_eq_val, ZMod.natCast_zmod_val]

/-- R11: for a prime modulus `inv_p` is the inverse of the field. -/
theorem cast_invMod (v : Int) (p : Nat) [Fact p.Prime] (hv : (v : ZMod p) ≠ 0) :
    (invMod v p : ZMod p) = (v : ZMod p)⁻¹ := by
  have hgcd : Int.gcd v p = 1 :=
    Int.isCoprime_iff_gcd_eq_one.1 ((ZMod.coe_int_isUnit_iff_isCoprime v p).1 hv.isUnit).symm
  have hinv : (invMod v p : ZMod p) * v = 1 := by
    exact_mod_cast (ZMod.intCast_eq_intCast_iff _ _ _).2
      (invMod_mul_modEq v (NeZero.pos p) hgcd)
  exact eq_inv_of_mul_eq_one_left hinv

/-- A number below `p` other than 0 is not 0 in the field. -/
theorem cast_ne_zero_of_lt {p y : Nat} (hy : y ≠ 0) (hlt : y < p) : (y : ZMod p) ≠ 0 := fun h =>
  hy (Nat.eq_zero_of_dvd_of_lt ((ZMod.natCast_eq_zero_iff y p).1 h) hlt)

/-- Different numbers below `p` are different in the field. -/
theorem cast_ne_cast_of_lt {p x1 x2 : Nat} (hx : x1 ≠ x2) (h1 : x1 < p) (h2 : x2 < p) :
    (x1 : ZMod p) ≠ x2 := fun h =>
  hx (((ZMod.natCast_eq_natCast_iff _ _ _).1 h).eq_of_lt_of_lt h1 h2)

/-- `p` is not 2, so that the run of a tangent that is not vertical is a unit. -/
theorem two_ne_zero_of_three_lt {p : Nat} (hp : 3 < p) : (2 : ZMod p) ≠ 0 :=
  cast_ne_zero_of_lt (y := 2) (by decide) (by omega)

/-! ### The tangent and chord formulas (R151, R152) -/

/-- The slope of the line with rise `n` and run `d`, `n * inv_p(d) mod p`. -/
def lineSlope (p : Nat) (n d : Int) : Nat := modNat (n * invMod d p) p

/-- The point that both formulas give: the third point of the line of slope `l` through `(x1, y1)` and a
point at `x2`, reflected. -/
def linePoint (p l : Nat) (x1 x2 y1 : Int) : Point :=
  .affine (modNat (l * l - x1 - x2) p)
    (modNat (l * (x1 - modNat (l * l - x1 - x2) p) - y1) p)

theorem lineSlope_lt (n d : Int) {p : Nat} (hp : 0 < p) : lineSlope p n d < p := modNat_lt _ hp

theorem cast_lineSlope (n d : Int) (p : Nat) [Fact p.Prime] (hd : (d : ZMod p) ≠ 0) :
    (lineSlope p n d : ZMod p) = n / d := by
  rw [lineSlope, cast_modNat, Int.cast_mul, Int.cast_natCast, cast_invMod d p hd, div_eq_mul_inv]

/-- The slope is the value in `[0, p)` that the run multiplies to the rise. -/
theorem lineSlope_mul_modEq (n d : Int) (p : Nat) [Fact p.Prime] (hd : (d : ZMod p) ≠ 0) :
    (lineSlope p n d : Int) * d ≡ n [ZMOD p] := by
  rw [← ZMod.intCast_eq_intCast_iff, Int.cast_mul, Int.cast_natCast, cast_lineSlope n d p hd,
    div_mul_cancel₀ _ hd]

theorem linePoint_coordinates (l : Nat) (x1 x2 y1 : Int) {p : Nat} (hp : 0 < p) :
    ∃ x3 y3 : Nat, linePoint p l x1 x2 y1 = .affine x3 y3 ∧ x3 < p ∧ y3 < p
      ∧ (x3 : Int) = (l * l - x1 - x2) % p ∧ (y3 : Int) = (l * (x1 - x3) - y1) % p :=
  ⟨_, _, rfl, modNat_lt _ hp, modNat_lt _ hp, modNat_cast _ hp, modNat_cast _ hp⟩

theorem dbl_vertical (p a x : Nat) : Point.dbl p a (.affine x 0) = .identity := by
  rw [Point.dbl, if_pos rfl]

theorem dbl_tangent (p a x : Nat) {y : Nat} (hy : y ≠ 0) :
    Point.dbl p a (.affine x y) = linePoint p (lineSlope p (3 * x * x + a) (2 * y)) x x y := by
  rw [linePoint, sub_sub, ← two_mul]
  exact if_neg hy

theorem add_self_eq_dbl (p a : Nat) (q : Point) : Point.add p a q q = Point.dbl p a q := by
  cases q with
  | identity => rfl
  | affine x y => exact if_pos ⟨rfl, rfl⟩

theorem add_vertical (p a x : Nat) {y1 y2 : Nat} (hy : y1 ≠ y2) :
    Point.add p a (.affine x y1) (.affine x y2) = .identity := by
  rw [Point.add, if_neg fun h => hy h.2, if_pos rfl]

theorem add_chord (p a y1 y2 : Nat) {x1 x2 : Nat} (hx : x1 ≠ x2) :
    Point.add p a (.affine x1 y1) (.affine x2 y2)
      = linePoint p (lineSlope p (y1 - y2) (x1 - x2)) x1 x2 y1 := by
  rw [Point.add, if_neg fun h => hx h.1, if_neg hx]
  rfl

/-- R151: the double of an affine point whose tangent is not vertical. -/
theorem dbl_tangent_formula {p : Nat} [Fact p.Prime] (hp : 3 < p) (a x : Nat) {y : Nat} (hy : y ≠ 0)
    (hlt : y < p) :
    ∃ l x3 y3 : Nat, Point.dbl p a (.affine x y) = .affine x3 y3 ∧ l < p ∧ x3 < p ∧ y3 < p
      ∧ l * (2 * y) % p = (3 * x * x + a) % p
      ∧ (x3 : Int) = ((l : Int) * l - 2 * x) % p ∧ (y3 : Int) = ((l : Int) * (x - x3) - y) % p := by
  have hrun : ((2 * y : Int) : ZMod p) ≠ 0 := by
    exact_mod_cast mul_ne_zero (two_ne_zero_of_three_lt hp) (cast_ne_zero_of_lt hy hlt)
  obtain ⟨x3, y3, hpoint, hx3, hy3, hx3', hy3'⟩ :=
    linePoint_coordinates (lineSlope p (3 * x * x + a) (2 * y)) x x y (NeZero.pos p)
  refine ⟨_, x3, y3, (dbl_tangent p a x hy).trans hpoint, lineSlope_lt _ _ (NeZero.pos p), hx3, hy3,
    ?_, ?_, hy3'⟩
  · refine Int.natCast_modEq_iff.1 ?_
    push_cast
    exact lineSlope_mul_modEq _ _ p hrun
  · rw [hx3', sub_sub, ← two_mul]

/-- R152: the sum of affine points of different `x`. -/
theorem add_chord_formula {p : Nat} [Fact p.Prime] (a y1 y2 : Nat) {x1 x2 : Nat} (hx : x1 ≠ x2)
    (h1 : x1 < p) (h2 : x2 < p) :
    ∃ l x3 y3 : Nat, Point.add p a (.affine x1 y1) (.affine x2 y2) = .affine x3 y3
      ∧ l < p ∧ x3 < p ∧ y3 < p ∧ ((l : Int) * (x1 - x2)) % p = ((y1 : Int) - y2) % p
      ∧ (x3 : Int) = ((l : Int) * l - x1 - x2) % p
      ∧ (y3 : Int) = ((l : Int) * (x1 - x3) - y1) % p := by
  have hrun : ((x1 - x2 : Int) : ZMod p) ≠ 0 := by
    exact_mod_cast sub_ne_zero.2 (cast_ne_cast_of_lt hx h1 h2)
  obtain ⟨x3, y3, hpoint, hx3, hy3, hformulas⟩ :=
    linePoint_coordinates (lineSlope p (y1 - y2) (x1 - x2)) x1 x2 y1 (NeZero.pos p)
  exact ⟨_, x3, y3, (add_chord p a y1 y2 hx).trans hpoint, lineSlope_lt _ _ (NeZero.pos p), hx3, hy3,
    lineSlope_mul_modEq _ _ p hrun, hformulas⟩

/-! ### Sources in range (R24, R150) -/

theorem inRange_affine_iff {p x y : Nat} :
    Point.inRange p (.affine x y) = true ↔ x < p ∧ y < p := by
  simp [Point.inRange]

/-- R24: the identity bit decides which point a register holds. -/
theorem readP_of_inf {s : State} {i : PReg} (h : (s.readPReg i).inf = true) :
    s.readP i = .identity := if_pos h

/-- R150: an affine register with a coordinate that is not below `p` is out of range. -/
theorem inRange_eq_false {s : State} {i : PReg} (hinf : (s.readPReg i).inf = false)
    (h : s.curve.p ≤ (s.readPReg i).x ∨ s.curve.p ≤ (s.readPReg i).y) :
    s.inRange (s.readP i) = false := by
  have hq : s.readP i = .affine (s.readPReg i).x.toNat (s.readPReg i).y.toNat :=
    if_neg (by simp [hinf])
  rw [State.inRange, hq, ← Bool.not_eq_true, inRange_affine_iff]
  rw [BitVec.le_def, BitVec.le_def] at h
  omega

/-! ### What the two commands leave (R150, R192) -/

/-- R151: PDBL of a source in range writes its double. -/
theorem exec_pdbl_inRange {s : State} (pd : PReg) {ps1 : PReg} (h : s.inRange (s.readP ps1) = true) :
    exec (.pdbl pd ps1) s = .next (s.succeed (.point pd (s.dbl (s.readP ps1)))) :=
  congrArg s.finish (if_pos h)

/-- R152: PADD of sources in range writes their sum. -/
theorem exec_padd_inRange {s : State} (pd : PReg) {ps1 ps2 : PReg}
    (h1 : s.inRange (s.readP ps1) = true) (h2 : s.inRange (s.readP ps2) = true) :
    exec (.padd pd ps1 ps2) s
      = .next (s.succeed (.point pd (s.add (s.readP ps1) (s.readP ps2)))) :=
  congrArg s.finish (if_pos (Bool.and_eq_true_iff.2 ⟨h1, h2⟩))

/-- R205: PDBL of a source out of range raises OPERAND_RANGE. -/
theorem exec_pdbl_outOfRange {s : State} (pd : PReg) {ps1 : PReg}
    (h : s.inRange (s.readP ps1) = false) :
    exec (.pdbl pd ps1) s = .next (s.raise .operandRange) :=
  congrArg s.finish (if_neg (by simp [h]))

/-- R205: PADD raises OPERAND_RANGE whichever source is out of range. -/
theorem exec_padd_outOfRange {s : State} (pd : PReg) {ps1 ps2 : PReg}
    (h : s.inRange (s.readP ps1) = false ∨ s.inRange (s.readP ps2) = false) :
    exec (.padd pd ps1 ps2) s = .next (s.raise .operandRange) :=
  congrArg s.finish (if_neg (by simpa only [Bool.not_eq_true, Bool.and_eq_false_iff] using h))

/-- R150: success with a point register as the destination writes nothing else. -/
theorem succeed_point_completedPoint (s : State) (pd : PReg) (q : Point) :
    CompletedPoint s (s.succeed (.point pd q)) pd :=
  ⟨⟨succeed_status s _, succeed_frame s _⟩, rfl,
    fun j hj => (readPReg_succeed_point s pd j q).trans (if_neg hj)⟩

/-- R24: the destination holds its point in canonical form. -/
theorem readPReg_succeed_point_same (s : State) (pd : PReg) (q : Point) :
    (s.succeed (.point pd q)).readPReg pd = regOfPoint q :=
  (readPReg_succeed_point s pd pd q).trans (if_pos rfl)

/-- Settles O38: each failed range check raises OPERAND_RANGE, and the identity passes the check. -/
theorem pointRangeErrors : Obligations.PointRangeErrors := by
  intro s pd ps1 ps2
  refine ⟨fun hinf hbad => ?_, fun hinf => ?_⟩
  · have hout := inRange_eq_false hinf hbad
    have hfailed := raise_failed s .operandRange
    exact ⟨⟨_, exec_pdbl_outOfRange pd hout, hfailed⟩,
      ⟨_, exec_padd_outOfRange pd (.inl hout), hfailed⟩,
      ⟨_, exec_padd_outOfRange pd (.inr hout), hfailed⟩⟩
  · exact ⟨_, exec_pdbl_inRange pd (congrArg s.inRange (readP_of_inf hinf)), rfl⟩

/-- R24: the double reads back as it was written. -/
theorem readP_succeed_dbl (s : State) (pd : PReg) (hp : 0 < s.curve.p.toNat) (q : Point) :
    (s.succeed (.point pd (s.dbl q))).readP pd = Point.dbl s.curve.p.toNat s.curve.a.toNat q :=
  readP_succeed_point s pd (dbl_inRange s.curve.a.toNat hp q)

/-- R24: the sum of points in range reads back as it was written. -/
theorem readP_succeed_add (s : State) (pd : PReg) (hp : 0 < s.curve.p.toNat) {q r : Point}
    (hq : s.inRange q = true) (hr : s.inRange r = true) :
    (s.succeed (.point pd (s.add q r))).readP pd
      = Point.add s.curve.p.toNat s.curve.a.toNat q r :=
  readP_succeed_point s pd (add_inRange s.curve.a.toNat hp hq hr)

/-- Settles O33: PDBL writes the double, whose three cases are those of R151. -/
theorem pdblResult : Obligations.PdblResult := by
  intro s pd ps1 ⟨hprime, hp3, _⟩ hin
  have : Fact s.curve.p.toNat.Prime := ⟨hprime⟩
  have hread := readP_succeed_dbl s pd hprime.pos (s.readP ps1)
  refine ⟨_, exec_pdbl_inRange pd hin, succeed_point_completedPoint s pd _, fun hq => ?_,
    fun x hq => ?_, fun x y hq hy => ?_⟩
  · rw [readPReg_succeed_point_same, hq, State.dbl, dbl_identity]
    rfl
  · rw [readPReg_succeed_point_same, hq, State.dbl, dbl_vertical]
    rfl
  · rw [hq] at hin
    rw [hread, hq]
    exact dbl_tangent_formula hp3 _ x hy (inRange_affine_iff.1 hin).2

/-- Settles O34: PADD writes the sum, whose cases are those of R152. -/
theorem paddResult : Obligations.PaddResult := by
  intro s pd ps1 ps2 ⟨hprime, _⟩ h1 h2
  have : Fact s.curve.p.toNat.Prime := ⟨hprime⟩
  have hread := readP_succeed_add s pd hprime.pos h1 h2
  refine ⟨_, exec_padd_inRange pd h1 h2, succeed_point_completedPoint s pd _, fun hq => ?_,
    fun hq => ?_, fun hsum => ?_, fun d hq hd => ?_, fun x y1 y2 hq1 hq2 hy => ?_,
    fun x1 y1 x2 y2 hq1 hq2 hx => ?_⟩
  · rw [hread, hq, add_identity_left]
  · rw [hread, hq, add_identity_right]
  · rw [readPReg_succeed_point_same, State.add, hread.symm.trans hsum]
    rfl
  · obtain rfl := Host.Outcome.next.inj ((exec_pdbl_inRange pd h1).symm.trans hd)
    rw [readPReg_succeed_point_same, readPReg_succeed_point_same, ← hq, State.add, add_self_eq_dbl,
      State.dbl]
  · rw [hread, hq1, hq2, add_vertical _ _ _ hy]
  · rw [hq1] at h1
    rw [hq2] at h2
    rw [hread, hq1, hq2]
    exact add_chord_formula _ y1 y2 hx (inRange_affine_iff.1 h1).1 (inRange_affine_iff.1 h2).1

/-! ### The points of the curve as a group (R154) -/

/-- The curve `y^2 = x^3 + a*x + b` of R8 over the field of `p` elements, as Mathlib's Weierstrass curve. -/
def fieldCurve (c : Curve) : WeierstrassCurve.Affine (ZMod c.p.toNat) :=
  ⟨0, 0, 0, c.a.toNat, c.b.toNat⟩

/-- The model's form of a point of that curve: coordinates as numbers in `[0, p)`. -/
def ofFieldPoint (c : Curve) : (fieldCurve c).Point → Point
  | .zero => .identity
  | .some x y _ => .affine x.val y.val

/-- R8: the discriminant is `4a^3 + 27b^2` up to a unit, because 2 is one; so no point is singular. -/
theorem fieldCurve_discriminant_ne_zero {c : Curve} (h : curveWellFormed c) :
    (fieldCurve c).Δ ≠ 0 := by
  obtain ⟨hprime, hp3, -, -, hdisc, -⟩ := h
  have : Fact c.p.toNat.Prime := ⟨hprime⟩
  have h2 := two_ne_zero_of_three_lt hp3
  have hcast : (4 * c.a.toNat ^ 3 + 27 * c.b.toNat ^ 2 : ZMod c.p.toNat) ≠ 0 := by
    rw [ne_eq, ← Nat.dvd_iff_mod_eq_zero, ← ZMod.natCast_eq_zero_iff] at hdisc
    exact_mod_cast hdisc
  have hΔ : (fieldCurve c).Δ = -(2 ^ 4 * (4 * c.a.toNat ^ 3 + 27 * c.b.toNat ^ 2)) := by
    simp only [WeierstrassCurve.Δ, WeierstrassCurve.b₂, WeierstrassCurve.b₄, WeierstrassCurve.b₆,
      WeierstrassCurve.b₈, fieldCurve]
    ring
  rw [hΔ]
  exact neg_ne_zero.2 (mul_ne_zero (pow_ne_zero 4 h2) hcast)

/-- R8: the model's equation is the curve's equation. -/
theorem onCurve_affine_iff (c : Curve) (x y : Nat) :
    Point.onCurve c (.affine x y) = true
      ↔ (x < c.p.toNat ∧ y < c.p.toNat) ∧ (fieldCurve c).Equation x y := by
  have heq : y * y % c.p.toNat = (x * x * x + c.a.toNat * x + c.b.toNat) % c.p.toNat
      ↔ (fieldCurve c).Equation x y := by
    rw [WeierstrassCurve.Affine.equation_iff]
    refine (ZMod.natCast_eq_natCast_iff _ _ _).symm.trans (Eq.congr ?_ ?_)
    all_goals
      push_cast [fieldCurve]
      ring
  rw [← heq]
  simp [Point.onCurve]

/-- A point of the curve is on the curve as the model says it. -/
theorem onCurve_ofFieldPoint {c : Curve} [NeZero c.p.toNat] (P : (fieldCurve c).Point) :
    Point.onCurve c (ofFieldPoint c P) = true := by
  cases P with
  | zero => rfl
  | some x y h =>
    refine (onCurve_affine_iff c _ _).2 ⟨⟨ZMod.val_lt x, ZMod.val_lt y⟩, ?_⟩
    rw [ZMod.natCast_zmod_val, ZMod.natCast_zmod_val]
    exact h.1

/-- Every point on the curve as the model says it is a point of the curve. -/
theorem exists_ofFieldPoint_eq {c : Curve} (hc : curveWellFormed c) {q : Point}
    (hq : Point.onCurve c q = true) : ∃ P, ofFieldPoint c P = q := by
  cases q with
  | identity => exact ⟨.zero, rfl⟩
  | affine x y =>
    obtain ⟨⟨hx, hy⟩, heq⟩ := (onCurve_affine_iff c x y).1 hq
    have hns := (WeierstrassCurve.Affine.equation_iff_nonsingular_of_Δ_ne_zero
      (fieldCurve_discriminant_ne_zero hc)).1 heq
    refine ⟨.some _ _ hns, ?_⟩
    rw [ofFieldPoint, ZMod.val_cast_of_lt hx, ZMod.val_cast_of_lt hy]

theorem negY_fieldCurve (c : Curve) (x y : ZMod c.p.toNat) : (fieldCurve c).negY x y = -y := by
  simp [WeierstrassCurve.Affine.negY, fieldCurve]

/-- R154: `neg` is the inverse of the group. -/
theorem ofFieldPoint_neg {c : Curve} [NeZero c.p.toNat] (P : (fieldCurve c).Point) :
    ofFieldPoint c (-P) = Point.neg c.p.toNat (ofFieldPoint c P) := by
  cases P with
  | zero => rfl
  | some x y h =>
    rw [WeierstrassCurve.Affine.Point.neg_some, ofFieldPoint, negY_fieldCurve, ZMod.neg_val']
    rfl

theorem addX_fieldCurve (c : Curve) (x1 x2 l : ZMod c.p.toNat) :
    (fieldCurve c).addX x1 x2 l = l * l - x1 - x2 := by
  simp only [WeierstrassCurve.Affine.addX, fieldCurve]
  ring

theorem addY_fieldCurve (c : Curve) (x1 x2 y1 l : ZMod c.p.toNat) :
    (fieldCurve c).addY x1 x2 y1 l = l * (x1 - (fieldCurve c).addX x1 x2 l) - y1 := by
  rw [WeierstrassCurve.Affine.addY, negY_fieldCurve, WeierstrassCurve.Affine.negAddY]
  ring

theorem slope_tangent_fieldCurve {c : Curve} [Fact c.p.toNat.Prime] (x : ZMod c.p.toNat)
    {y : ZMod c.p.toNat} (hy : y ≠ -y) :
    (fieldCurve c).slope x x y y = (3 * x * x + c.a.toNat) / (2 * y) := by
  rw [WeierstrassCurve.Affine.slope_of_Y_ne rfl (by rwa [negY_fieldCurve]), negY_fieldCurve]
  simp only [fieldCurve]
  congr 1 <;> ring

/-- The formulas of R151 and R152, computed in the field. -/
theorem linePoint_eq {c : Curve} [NeZero c.p.toNat] (l : Nat) (x1 x2 y1 : ZMod c.p.toNat) :
    linePoint c.p.toNat l x1.val x2.val y1.val
      = .affine ((fieldCurve c).addX x1 x2 l).val ((fieldCurve c).addY x1 x2 y1 l).val := by
  rw [linePoint, addY_fieldCurve, addX_fieldCurve, modNat_eq_val, modNat_eq_val]
  simp

/-- R152: points of different `x` are added on their chord. -/
theorem ofFieldPoint_add_chord {c : Curve} [Fact c.p.toNat.Prime] {x1 y1 x2 y2 : ZMod c.p.toNat}
    (h1 : (fieldCurve c).Nonsingular x1 y1) (h2 : (fieldCurve c).Nonsingular x2 y2) (hx : x1 ≠ x2) :
    ofFieldPoint c (.some x1 y1 h1 + .some x2 y2 h2)
      = Point.add c.p.toNat c.a.toNat (.affine x1.val y1.val) (.affine x2.val y2.val) := by
  have hrun : ((x1.val - x2.val : Int) : ZMod c.p.toNat) = x1 - x2 := by simp
  have hslope : (lineSlope c.p.toNat (y1.val - y2.val) (x1.val - x2.val) : ZMod c.p.toNat)
      = (fieldCurve c).slope x1 x2 y1 y2 := by
    rw [cast_lineSlope _ _ _ (hrun ▸ sub_ne_zero.2 hx), WeierstrassCurve.Affine.slope_of_X_ne hx]
    simp
  rw [WeierstrassCurve.Affine.Point.add_of_X_ne hx, ofFieldPoint, ← hslope,
    add_chord _ _ _ _ fun h => hx (ZMod.val_injective _ h), linePoint_eq]

/-- R151: a point whose tangent is not vertical is doubled on its tangent. -/
theorem ofFieldPoint_add_tangent {c : Curve} [Fact c.p.toNat.Prime] (hp : 3 < c.p.toNat)
    {x y : ZMod c.p.toNat} (h : (fieldCurve c).Nonsingular x y) (hy : y ≠ -y) :
    ofFieldPoint c (.some x y h + .some x y h)
      = Point.dbl c.p.toNat c.a.toNat (.affine x.val y.val) := by
  have hy0 : y ≠ 0 := by
    rintro rfl
    exact hy neg_zero.symm
  have hrun : ((2 * y.val : Int) : ZMod c.p.toNat) = 2 * y := by simp
  have hslope : (lineSlope c.p.toNat (3 * x.val * x.val + c.a.toNat) (2 * y.val) : ZMod c.p.toNat)
      = (fieldCurve c).slope x x y y := by
    rw [cast_lineSlope _ _ _ (hrun ▸ mul_ne_zero (two_ne_zero_of_three_lt hp) hy0),
      slope_tangent_fieldCurve x hy]
    simp
  rw [WeierstrassCurve.Affine.Point.add_self_of_Y_ne (by rwa [negY_fieldCurve]), ofFieldPoint,
    ← hslope, dbl_tangent _ _ _ ((ZMod.val_ne_zero y).2 hy0), linePoint_eq]

/-- R152: inverse points, equal or not, have the sum identity. -/
theorem add_of_eq_neg {p : Nat} [Fact p.Prime] (h2 : (2 : ZMod p) ≠ 0) (a x : Nat)
    {y1 y2 : ZMod p} (hy : y1 = -y2) :
    Point.add p a (.affine x y1.val) (.affine x y2.val) = .identity := by
  obtain rfl | hne := eq_or_ne y1 y2
  · have hy0 : y1 = 0 := by
      have hdouble : 2 * y1 = 0 := by linear_combination hy
      exact (mul_eq_zero.1 hdouble).resolve_left h2
    rw [add_self_eq_dbl, hy0, ZMod.val_zero, dbl_vertical]
  · exact add_vertical _ _ _ fun h => hne (ZMod.val_injective _ h)

/-- R154: `add` is the addition of the group. -/
theorem ofFieldPoint_add {c : Curve} [Fact c.p.toNat.Prime] (hp : 3 < c.p.toNat)
    (P Q : (fieldCurve c).Point) :
    ofFieldPoint c (P + Q)
      = Point.add c.p.toNat c.a.toNat (ofFieldPoint c P) (ofFieldPoint c Q) := by
  cases P with
  | zero => exact (congrArg _ (zero_add Q)).trans (add_identity_left _ _ _).symm
  | some x1 y1 h1 =>
    cases Q with
    | zero => exact (congrArg _ (add_zero _)).trans (add_identity_right _ _ _).symm
    | some x2 y2 h2 =>
      obtain rfl | hx := eq_or_ne x1 x2
      · by_cases hy : y1 = -y2
        · rw [WeierstrassCurve.Affine.Point.add_of_Y_eq rfl (by rwa [negY_fieldCurve])]
          exact (add_of_eq_neg (two_ne_zero_of_three_lt hp) _ _ hy).symm
        · obtain rfl : y1 = y2 := WeierstrassCurve.Affine.Y_eq_of_Y_ne h1.1 h2.1 rfl
            (by rwa [negY_fieldCurve])
          exact (ofFieldPoint_add_tangent hp h1 hy).trans (add_self_eq_dbl _ _ _).symm
      · exact ofFieldPoint_add_chord h1 h2 hx

/-- Settles O40: the points on the curve are the group of Mathlib's Weierstrass curve, with its addition
and its inverse. -/
theorem curvePointsFormAGroup : Obligations.CurvePointsFormAGroup := by
  intro c hc
  have ⟨hprime, hp3, _⟩ := hc
  have : Fact c.p.toNat.Prime := ⟨hprime⟩
  have hadd := ofFieldPoint_add (c := c) hp3
  refine ⟨fun q r hq hr => ?_, fun q r u hq hr hu => ?_⟩
  · obtain ⟨Q, rfl⟩ := exists_ofFieldPoint_eq hc hq
    obtain ⟨R, rfl⟩ := exists_ofFieldPoint_eq hc hr
    rw [← add_self_eq_dbl, ← ofFieldPoint_neg, ← hadd, ← hadd, ← hadd, ← hadd, add_comm R Q,
      add_neg_cancel]
    exact ⟨onCurve_ofFieldPoint _, onCurve_ofFieldPoint _, rfl, rfl, add_identity_left _ _ _,
      onCurve_ofFieldPoint _, rfl⟩
  · obtain ⟨Q, rfl⟩ := exists_ofFieldPoint_eq hc hq
    obtain ⟨R, rfl⟩ := exists_ofFieldPoint_eq hc hr
    obtain ⟨U, rfl⟩ := exists_ofFieldPoint_eq hc hu
    rw [← hadd, ← hadd, ← hadd, ← hadd, add_assoc]

end Sys2Proof.Proofs

/-! The scalar multiplication SMUL (42_scalar_mult.md): its loop as a run over the bits of the scalar, the
double-and-add product as the multiple of the group of the curve, and what the command leaves. -/

namespace Sys2Proof.Proofs

open Sys2Proof.Machine

/-! ### The loop over the bits of the scalar (R171, R174) -/

/-- The iteration of R171 at bit `i` of the scalar `k`, on the accumulator and the addend. -/
def bitStep (p a k : Nat) (st : Point × Point) (i : Nat) : Point × Point :=
  (if k.testBit i then Point.add p a st.1 st.2 else st.1, Point.dbl p a st.2)

/-- `k div 2` is `k` shifted right by one bit. -/
theorem bitStep_succ (p a k : Nat) (st : Point × Point) (i : Nat) :
    bitStep p a k st (i + 1) = bitStep p a (k / 2) st i := by
  rw [bitStep, Nat.testBit_succ]
  rfl

/-- R171: the iteration at bit 0 is the body of the loop. -/
theorem bitStep_zero (p a k : Nat) (acc addend : Point) :
    bitStep p a k (acc, addend) 0
      = (if k % 2 = 1 then Point.add p a acc addend else acc, Point.dbl p a addend) := by
  simp [bitStep, Nat.testBit_zero]

theorem size_of_ne_zero {k : Nat} (hk : k ≠ 0) : k.size = (k / 2).size + 1 := by
  have hbit : Nat.bit k.bodd (k / 2) = k := by
    rw [← Nat.div2_val, Nat.bit_bodd_div2]
  have hsize := Nat.size_bit (b := k.bodd) (n := k / 2) (by rwa [hbit])
  rwa [hbit] at hsize

/-- R171, R174: fuel for the bits of `k` lets the loop run over all of them, from bit 0 upwards. -/
theorem mulLoop_eq_foldl (p a : Nat) : ∀ (fuel k : Nat) (acc addend : Point), k < 2 ^ fuel →
    mulLoop p a fuel k acc addend
      = ((List.range k.size).foldl (bitStep p a k) (acc, addend)).1 := by
  intro fuel
  induction fuel with
  | zero =>
    intro k acc addend hk
    obtain rfl : k = 0 := by omega
    rfl
  | succ fuel ih =>
    intro k acc addend hk
    obtain rfl | hne := eq_or_ne k 0
    · rfl
    · rw [mulLoop_succ _ _ _ hne, ih _ _ _ (by omega), size_of_ne_zero hne,
        List.range_succ_eq_map, List.foldl_cons, List.foldl_map, bitStep_zero]
      simp only [Nat.succ_eq_add_one, bitStep_succ]

/-- Settles O36: 256 iterations are enough for a scalar of 256 bits. -/
theorem smulRunsOverTheBits : Obligations.SmulRunsOverTheBits := fun p a k q hk =>
  (mul_eq_mulLoop p a k q).trans (mulLoop_eq_foldl p a 256 k .identity q hk)

/-! ### The product as a multiple of the group (R154, R171) -/

/-- The contract's one-by-one additions give the multiple of the group. -/
theorem timesAdd_ofFieldPoint {c : Curve} [Fact c.p.toNat.Prime] (hp : 3 < c.p.toNat)
    (P : (fieldCurve c).Point) (k : Nat) :
    Point.timesAdd c.p.toNat c.a.toNat (ofFieldPoint c P) k = ofFieldPoint c (k • P) := by
  induction k with
  | zero => rw [zero_nsmul]; rfl
  | succ k ih => rw [Point.timesAdd, ih, ← ofFieldPoint_add hp, succ_nsmul]

/-- The loop keeps the sum of the accumulator and `k` times the addend. -/
theorem mulLoop_ofFieldPoint {c : Curve} [Fact c.p.toNat.Prime] (hp : 3 < c.p.toNat) :
    ∀ (fuel k : Nat) (A P : (fieldCurve c).Point), k < 2 ^ fuel →
      mulLoop c.p.toNat c.a.toNat fuel k (ofFieldPoint c A) (ofFieldPoint c P)
        = ofFieldPoint c (A + k • P) := by
  intro fuel
  induction fuel with
  | zero =>
    intro k A P hk
    obtain rfl : k = 0 := by omega
    rw [mulLoop_zero_scalar, zero_nsmul, add_zero]
  | succ fuel ih =>
    intro k A P hk
    obtain rfl | hne := eq_or_ne k 0
    · rw [mulLoop_zero_scalar, zero_nsmul, add_zero]
    · have hacc : (if k % 2 = 1 then
            Point.add c.p.toNat c.a.toNat (ofFieldPoint c A) (ofFieldPoint c P)
          else ofFieldPoint c A) = ofFieldPoint c (A + (k % 2) • P) := by
        obtain heven | hodd := Nat.mod_two_eq_zero_or_one k
        · rw [heven, if_neg (by decide), zero_nsmul, add_zero]
        · rw [hodd, if_pos rfl, one_nsmul, ofFieldPoint_add hp]
      have hsplit : (k % 2) • P + (k / 2) • (P + P) = k • P := by
        rw [← two_nsmul, ← mul_nsmul', mul_comm, ← add_nsmul, Nat.mod_add_div]
      rw [mulLoop_succ _ _ _ hne, hacc, ← add_self_eq_dbl, ← ofFieldPoint_add hp,
        ih _ _ _ (by omega), add_assoc, hsplit]

/-- R171: the double-and-add product is the multiple of the group. -/
theorem mul_ofFieldPoint {c : Curve} [Fact c.p.toNat.Prime] (hp : 3 < c.p.toNat)
    (P : (fieldCurve c).Point) {k : Nat} (hk : k < 2 ^ 256) :
    Point.mul c.p.toNat c.a.toNat k (ofFieldPoint c P) = ofFieldPoint c (k • P) := by
  have hloop := mulLoop_ofFieldPoint hp 256 k 0 P hk
  rw [zero_add] at hloop
  exact hloop

/-- Settles O41: both sides are the multiple of the group. -/
theorem smulIsRepeatedAddition : Obligations.SmulIsRepeatedAddition := by
  intro c k q hc hk hq
  have ⟨hprime, hp3, _⟩ := hc
  have : Fact c.p.toNat.Prime := ⟨hprime⟩
  obtain ⟨P, rfl⟩ := exists_ofFieldPoint_eq hc hq
  rw [mul_ofFieldPoint hp3 P hk, timesAdd_ofFieldPoint hp3]

/-- Only the zero of the group is the identity of R13. -/
theorem eq_zero_of_ofFieldPoint {c : Curve} {P : (fieldCurve c).Point}
    (h : ofFieldPoint c P = .identity) : P = 0 := by
  cases P with
  | zero => rfl
  | some x y hns => cases h

/-- R8: the base point is a point of the group, and `n` times it is the zero. -/
theorem exists_ofFieldPoint_eq_basePoint {c : Curve} [Fact c.p.toNat.Prime]
    (hc : curveWellFormed c) : ∃ P, ofFieldPoint c P = basePoint c ∧ c.n.toNat • P = 0 := by
  have ⟨_, hp3, _, _, _, hbase, _, horder, _⟩ := hc
  obtain ⟨P, hP⟩ := exists_ofFieldPoint_eq hc hbase
  rw [← hP, timesAdd_ofFieldPoint hp3] at horder
  exact ⟨P, hP, eq_zero_of_ofFieldPoint horder⟩

/-! ### What the command leaves (R170, R171, R192) -/

/-- R8: coordinates of a point on the curve are field elements. -/
theorem inRange_of_onCurve {c : Curve} {q : Point} (h : Point.onCurve c q = true) :
    Point.inRange c.p.toNat q = true := by
  cases q with
  | identity => rfl
  | affine x y => exact inRange_affine_iff.2 ((onCurve_affine_iff c x y).1 h).1

/-- R171: `G` is always in range for a well-formed `CURVE`. -/
theorem basePoint_inRange {s : State} (hc : curveWellFormed s.curve) :
    s.inRange (basePoint s.curve) = true := by
  obtain ⟨-, -, -, -, -, hbase, -⟩ := hc
  exact inRange_of_onCurve hbase

/-- R98: the point of SMUL is in range if the register it may come from is. -/
theorem mulSource_inRange {s : State} (hc : curveWellFormed s.curve) {ps1 : PReg} {gsel : Bool}
    (h : gsel = true ∨ s.inRange (s.readP ps1) = true) :
    s.inRange (s.mulSource ps1 gsel) = true := by
  cases gsel with
  | true => exact basePoint_inRange hc
  | false => exact h.resolve_left Bool.false_ne_true

/-- R171: SMUL past its two checks writes the product. -/
theorem exec_smul_inRange {s : State} (pd : PReg) {ps1 : PReg} {rk : FReg} {gsel chk : Bool}
    (hk : chk = true → 1 ≤ s.natF rk ∧ s.natF rk < s.curve.n.toNat)
    (hq : s.inRange (s.mulSource ps1 gsel) = true) :
    exec (.smul pd ps1 rk gsel chk) s
      = .next (s.succeed (.point pd (s.mul (s.natF rk) (s.mulSource ps1 gsel)))) := by
  have hscalar : ¬(chk = true ∧ (s.natF rk = 0 ∨ s.curve.n.toNat ≤ s.natF rk)) := by
    rintro ⟨hchk, hbad⟩
    have := hk hchk
    omega
  exact congrArg s.finish ((if_neg hscalar).trans (if_pos hq))

/-- R24: the product of a point in range reads back as it was written. -/
theorem readP_succeed_mul (s : State) (pd : PReg) (hp : 0 < s.curve.p.toNat) (k : Nat) {q : Point}
    (hq : s.inRange q = true) : (s.succeed (.point pd (s.mul k q))).readP pd = s.mul k q :=
  readP_succeed_point s pd (mul_inRange s.curve.a.toNat k hp hq)

/-- Settles O35: SMUL writes the product of the point it has chosen. -/
theorem smulResult : Obligations.SmulResult := by
  intro s pd ps1 rk gsel chk hc hk hq
  have hin := mulSource_inRange hc hq
  have hread := readP_succeed_mul s pd (p_pos_of_curveWellFormed hc) (s.natF rk) hin
  refine ⟨_, exec_smul_inRange pd hk hin, succeed_point_completedPoint s pd _, fun hid => ?_, ?_⟩
  · rw [readPReg_succeed_point_same, hread.symm.trans hid]
    rfl
  · rw [hread, State.mulSource, apply_ite (s.mul (s.natF rk))]

/-- R173: SMUL of `G` without the scalar check writes a multiple of `G`. -/
theorem exec_smul_basePoint {s : State} [Fact s.curve.p.toNat.Prime]
    (hc : curveWellFormed s.curve) (pd : PReg) (rk : FReg) {P : (fieldCurve s.curve).Point}
    (hP : ofFieldPoint s.curve P = basePoint s.curve) :
    ∃ t, exec (.smul pd 0 rk true false) s = .next t
      ∧ t.readP pd = ofFieldPoint s.curve (s.natF rk • P) := by
  have ⟨_, hp3, _⟩ := hc
  obtain ⟨t, hexec, -, -, hread⟩ := smulResult s pd 0 rk true false hc nofun (.inl rfl)
  refine ⟨t, hexec, hread.trans ?_⟩
  rw [if_pos rfl, ← hP]
  exact mul_ofFieldPoint hp3 P (natF_lt s rk)

/-- Settles O42: SMUL of `G` is the multiple of a point of the group whose order divides `n`. -/
theorem smulOfBasePoint : Obligations.SmulOfBasePoint := by
  intro s pd r1 r2 r3 hc
  have ⟨hprime, hp3, _⟩ := hc
  have : Fact s.curve.p.toNat.Prime := ⟨hprime⟩
  obtain ⟨P, hP, horder⟩ := exists_ofFieldPoint_eq_basePoint hc
  obtain ⟨t1, hexec1, hread1⟩ := exec_smul_basePoint hc pd r1 hP
  obtain ⟨t2, hexec2, hread2⟩ := exec_smul_basePoint hc pd r2 hP
  obtain ⟨t3, hexec3, hread3⟩ := exec_smul_basePoint hc pd r3 hP
  refine ⟨t1, t2, t3, hexec1, hexec2, hexec3, fun hzero => ?_, fun hone => ?_, fun hsum => ?_,
    fun hmod => ?_⟩
  · rw [hread1, hzero, zero_nsmul]
    rfl
  · rw [hread1, hone, one_nsmul, hP]
  · rw [hread3, hread1, hread2, hsum, add_nsmul]
    exact ofFieldPoint_add hp3 _ _
  · rw [hread1, hread2, hmod, nsmul_eq_mod_nsmul _ horder]

end Sys2Proof.Proofs

/-! The command lifecycle (43_control.md): issue, acceptance, the engine's turn, NOP, the soft reset, what every
step keeps of STATUS, and why a pending command completes. -/

namespace Sys2Proof.Proofs

open Sys2Proof.Machine

/-! ### What every step keeps of STATUS and of a block in reset (R191, R192, R33, R240) -/

/-- While a command is pending STATUS reports no earlier one, and ERR stands only with an error code. -/
def StatusConsistent (st : Status) : Prop :=
  (st.busy = true → st.done = false ∧ st.err = false ∧ st.errcode = none)
    ∧ (st.err = true → st.errcode ≠ none)

theorem consistent_iff (s : State) :
    s.consistent ↔ StatusConsistent s.status ∧ (s.resetAsserted = true → s.registersAtReset)
      ∧ (s.admitted = true → curveWellFormed s.curve) :=
  and_assoc.symm

/-- R33: clearing bits of STATUS leaves BUSY and the error code. -/
theorem StatusConsistent.statusClear {st : Status} (h : StatusConsistent st) (v : Word) :
    StatusConsistent (statusClear st v) := by
  obtain ⟨hpending, herr⟩ := h
  refine ⟨fun hb => ?_, fun he => herr (Bool.and_eq_true_iff.1 he).1⟩
  obtain ⟨hdone, herr0, hcode⟩ := hpending hb
  exact ⟨by simp [Machine.statusClear, hdone], by simp [Machine.statusClear, herr0], hcode⟩

theorem WriteResult.statusConsistent {s t : State} (h : WriteResult s t)
    (hs : StatusConsistent s.status) : StatusConsistent t.status := by
  cases h with
  | reset => exact ⟨nofun, nofun⟩
  | statusBits v => exact hs.statusClear v
  | accepted c _ => exact ⟨fun _ => ⟨rfl, rfl, rfl⟩, nofun⟩
  | ignored | intEnable | commandDropped | field | points | operandDropped => exact hs

/-- R192: a command that succeeds leaves ERR as acceptance cleared it; one that fails sets ERR with its
code. -/
theorem complete_statusConsistent {s : State} (hs : StatusConsistent s.status)
    (hb : s.status.busy = true) (r : Result) : StatusConsistent (s.complete r).status := by
  cases r with
  | error c => exact ⟨nofun, nofun⟩
  | ok e =>
    obtain ⟨hpending, -⟩ := hs
    obtain ⟨-, herr, -⟩ := hpending hb
    exact ⟨nofun, fun he => absurd (herr.symm.trans he) nofun⟩

theorem EventResult.statusConsistent {u t : State} (h : EventResult u t)
    (hu : StatusConsistent u.status) : StatusConsistent t.status := by
  cases h with
  | completion r hb => exact complete_statusConsistent hu hb r
  | hostWrite r v _ => exact (writeResult_writeReg u r v).statusConsistent hu
  | reset => exact ⟨nofun, nofun⟩
  | idle | response | release => exact hu

theorem blockReset_registersAtReset (s : State) : s.blockReset.registersAtReset :=
  ⟨readF_blockReset s, readPReg_blockReset s, rfl, rfl, rfl⟩

theorem WriteResult.resetAsserted {s t : State} (h : WriteResult s t) :
    t.resetAsserted = s.resetAsserted := by
  cases h <;> rfl

/-- R240: a block in reset has no command that could complete, and the host's writes are lost. -/
theorem EventResult.registersAtReset {u t : State} (h : EventResult u t)
    (hu : u.resetAsserted = true → u.registersAtReset) (ht : t.resetAsserted = true) :
    t.registersAtReset := by
  cases h with
  | completion r hb =>
    obtain ⟨-, -, -, -, -, hreset, -, -⟩ := complete_frame u r
    obtain ⟨-, -, -, hstatus, -⟩ := hu (hreset ▸ ht)
    rw [hstatus] at hb
    cases hb
  | hostWrite r v hreleased =>
    have hkept := (writeResult_writeReg u r v).resetAsserted
    cases hreleased.symm.trans (hkept.symm.trans ht)
  | reset => exact blockReset_registersAtReset u
  | release => cases ht
  | idle | response => exact hu ht

/-- Settles O6: STATUS, the reset values and the instance, each kept by every event. -/
theorem stepKeepsStatusConsistent : Obligations.StepKeepsStatusConsistent := by
  intro s t hs h
  obtain ⟨hstatus, hreset, hcurve⟩ := (consistent_iff s).1 hs
  obtain ⟨rest, ht⟩ := step_eventResult h
  obtain ⟨hc, -, hadm⟩ := stepKeepsCurveAndBase s t h
  exact (consistent_iff t).2
    ⟨ht.statusConsistent hstatus, ht.registersAtReset hreset, by rwa [hc, hadm]⟩

/-! ### The soft reset (R194, R35) -/

theorem blockReset_isReset (s : State) : BlockIsReset s s.blockReset :=
  ⟨blockReset_registersAtReset s, rfl, rfl, rfl⟩

theorem irq_of_registersAtReset {s : State} (h : s.registersAtReset) : s.irq = false := by
  obtain ⟨-, -, -, hstatus, -⟩ := h
  rw [State.irq, hstatus]
  rfl

/-- R194: a CTRL write with bit 0 set is a reset of the block. -/
theorem step_softReset {s : State} {v : Word} {rest : List Event} (h : HostWrites s 0x004 v rest)
    (hv : v.getLsbD 0 = true) :
    step s = .next ((s.setPending rest).blockReset.setRdata none) := by
  rw [step_hostWrites (r := .ctrl) h, writeReg_ctrl, if_pos hv]

/-- R35: a CTRL write with bit 0 clear does nothing. -/
theorem step_ctrl_ignored {s : State} {v : Word} {rest : List Event} (h : HostWrites s 0x004 v rest)
    (hv : v.getLsbD 0 = false) : step s = .next ((s.setPending rest).setRdata none) := by
  rw [step_hostWrites (r := .ctrl) h, writeReg_ctrl, if_neg (hv ▸ Bool.false_ne_true)]

/-- Settles O3: CTRL looks at bit 0 alone. -/
theorem softResetResetsTheBlock : Obligations.SoftResetResetsTheBlock := by
  intro s v rest h
  cases hv : v.getLsbD 0
  · exact ⟨_, step_ctrl_ignored h hv, rfl, nofun, fun _ => rfl⟩
  · have hisReset := blockReset_isReset (s.setPending rest)
    exact ⟨_, step_softReset h hv, rfl,
      fun _ => ⟨hisReset, irq_of_registersAtReset hisReset.1⟩, nofun⟩

/-- R194: without the working storage, what a soft reset leaves is a function of the instance, the reset
input and the events still to come. -/
theorem softReset_setWork (s : State) (rest : List Event) :
    ((s.setPending rest).blockReset.setRdata none).setWork 0 =
      ((State.resetOf s.curve s.basePage s.admitted).setResetAsserted s.resetAsserted).setPending
        rest :=
  rfl

/-- Settles O4: the two states agree in all that a soft reset keeps. -/
theorem softResetForgetsEveryRegister : Obligations.SoftResetForgetsEveryRegister := by
  intro s1 s2 v rest t1 t2 h1 h2 hv hcurve hbase ht1 ht2
  obtain rfl := Host.Outcome.next.inj ((step_softReset h1 hv).symm.trans ht1)
  obtain rfl := Host.Outcome.next.inj ((step_softReset h2 hv).symm.trans ht2)
  obtain ⟨-, hadm1, hreset1⟩ := h1
  obtain ⟨-, hadm2, hreset2⟩ := h2
  rw [SameButWork, softReset_setWork, softReset_setWork, hcurve, hbase, hadm1, hadm2, hreset1,
    hreset2]

/-! ### A pending command completes (R192, R194, R260) -/

theorem engineTurn_answers (s : State) : ∃ t, engineTurn s = .next t := by
  cases hb : s.status.busy
  · exact ⟨s, engineTurn_idle hb⟩
  · cases hd : decode s.cmdlat with
    | ok i =>
      obtain ⟨r, hr⟩ := exec_completes i s
      exact ⟨_, (engineTurn_legal hb hd).trans hr⟩
    | error e => exact ⟨_, engineTurn_illegal hb hd⟩

/-- R192: the engine's turn on a pending command, legal or not, leaves the block idle. -/
theorem engineTurn_completes {s : State} (hb : s.status.busy = true) :
    ∃ t, engineTurn s = .next t ∧ t.status.busy = false := by
  obtain ⟨t, ht⟩ := engineTurn_answers s
  obtain ⟨r, rfl⟩ := engineTurn_busy_next hb ht
  obtain ⟨-, -, hidle, -⟩ := complete_status_frame s r
  exact ⟨_, ht, hidle⟩

theorem exists_location_of_accepts {s : State} {addr size : Nat}
    (h : s.accepts (.read addr size) = true) : ∃ r, s.route addr size = .location r := by
  cases hr : s.route addr size with
  | location r => exact ⟨r, rfl⟩
  | busError | platform => simp [State.accepts, hr] at h

/-- R65, R67: an event the bus accepts is answered with a next state. -/
theorem runEvent_answers {e : Event} {u : State} (h : u.accepts e = true) :
    ∃ t, runEvent e u = .next t := by
  cases e with
  | read addr size =>
    obtain ⟨r, hr⟩ := exists_location_of_accepts h
    exact ⟨_, by rw [runEvent, State.hostRead, hr]⟩
  | write addr size v =>
    obtain ⟨r, hr⟩ := exists_location_of_accepts h
    exact ⟨_, by rw [runEvent, State.hostWrite, hr]⟩
  | engine => exact engineTurn_answers u
  | resetAssert | resetRelease => exact ⟨_, rfl⟩

/-- R66: what the bus accepts depends on the base address alone. -/
theorem accepts_congr {s t : State} (h : t.basePage = s.basePage) (e : Event) :
    t.accepts e = s.accepts e := by
  have same_route (addr size : Nat) : t.route addr size = s.route addr size := by
    rw [State.route, State.route, show t.base = s.base from congrArg (4096 * ·) h]
  cases e <;> simp only [State.accepts, same_route]

theorem WriteResult.pending {s t : State} (h : WriteResult s t) : t.pending = s.pending := by
  cases h <;> rfl

/-- Log entry 3: no event changes what is still to come after it. -/
theorem EventResult.pending {u t : State} (h : EventResult u t) : t.pending = u.pending := by
  cases h with
  | completion r _ =>
    obtain ⟨-, -, -, -, -, -, hpending, -⟩ := complete_frame u r
    exact hpending
  | hostWrite r v _ => exact (writeResult_writeReg u r v).pending
  | idle | response | reset | release => rfl

/-- A safe block takes its next event off the list and stays safe. -/
theorem step_safe {s : State} {e : Event} {rest : List Event} (hs : s.safe)
    (hp : s.pending = e :: rest) : ∃ t, step s = .next t ∧ t.safe ∧ t.pending = rest := by
  obtain ⟨hadm, haccepts⟩ := hs
  rw [hp] at haccepts
  obtain ⟨haccept, haccepts⟩ := List.forall_mem_cons.1 haccepts
  obtain ⟨t, ht⟩ := runEvent_answers (u := s.setPending rest) haccept
  have hev := runEvent_eventResult ht
  obtain ⟨-, hbase, hadm'⟩ := hev.sameInstance
  have hrest : t.pending = rest := hev.pending
  refine ⟨t, (step_of_pending_cons hadm hp).trans ht, ⟨hadm'.trans hadm, fun e' he' => ?_⟩, hrest⟩
  rw [accepts_congr hbase]
  exact haccepts e' (hrest ▸ he')

theorem run_succ {M : Host.Core} {s t : M.State} (h : M.step s = .next t) (k : Nat) :
    M.run (k + 1) s = M.run k t := by
  rw [Host.Core.run, h]

/-- Settles O11, by induction on the events still to come: each step takes one, and with none left the
engine completes the command. -/
theorem pendingCommandCompletes : Obligations.PendingCommandCompletes := by
  intro s
  induction hp : s.pending generalizing s with
  | nil =>
    intro hs hb
    obtain ⟨t, ht, hidle⟩ := engineTurn_completes hb
    have hstep := (step_of_pending_nil hs.1 hp).trans ht
    exact ⟨1, t, Nat.le_refl _, run_succ (M := core) hstep 0, hidle⟩
  | cons e rest ih =>
    intro hs hb
    obtain ⟨t, hstep, hsafe, hrest⟩ := step_safe hs hp
    cases hbusy : t.status.busy
    · exact ⟨1, t, by omega, run_succ (M := core) hstep 0, hbusy⟩
    · obtain ⟨k, t', hk, hrun, hidle⟩ := ih t hrest hsafe hbusy
      exact ⟨k + 1, t', Nat.succ_le_succ hk, (run_succ (M := core) hstep k).trans hrun, hidle⟩

/-! ### Issue and acceptance (R190, R191, R251) -/

/-- Settles O20: the CMD write is `issue`, which accepts while idle. -/
theorem commandWriteIsAccepted : Obligations.CommandWriteIsAccepted := by
  intro s c rest h hidle
  rw [step_hostWrites (r := .cmd) h, State.writeReg, issue_idle (s := s.setPending rest) hidle]
  rfl

/-- Settles O21: the CMD write is `issue`, which sets OVR alone while busy. -/
theorem commandWriteWhileBusyIsDropped : Obligations.CommandWriteWhileBusyIsDropped := by
  intro s c rest h hbusy
  rw [step_hostWrites (r := .cmd) h, State.writeReg, issue_busy (s := s.setPending rest) hbusy]
  rfl

/-! ### The engine's turn (R192, R195, R241) -/

/-- The engine's turn on a pending legal word is `exec` of its command, wherever the turn stands. -/
theorem step_legal {s : State} {i : Instr} {rest : List Event} (h : EngineIsNext s rest)
    (hb : s.status.busy = true) (hd : decode s.cmdlat = .ok i) :
    step s = exec i (s.setPending rest) :=
  (step_of_engineIsNext h).trans (engineTurn_legal (s := s.setPending rest) hb hd)

/-- Settles O17: the engine's turn with no event left, and as the first event. -/
theorem stepRunsTheDecodedInstruction : Obligations.StepRunsTheDecodedInstruction := by
  intro s i hadm hb hd
  exact ⟨fun hp => (step_of_pending_nil hadm hp).trans (engineTurn_legal hb hd),
    fun rest hp => step_legal ⟨.inl hp, hadm⟩ hb hd⟩

/-- Settles O18: acceptance latches the word and sets BUSY, so that the engine's turn finds it pending. -/
theorem issuedWordIsTheOneThatRuns : Obligations.IssuedWordIsTheOneThatRuns := by
  intro s c i rest h hidle hd
  have ⟨_, hadm, _⟩ := h
  exact ⟨_, commandWriteIsAccepted s c (.engine :: rest) h hidle,
    step_legal ⟨.inl rfl, hadm⟩ rfl hd⟩

/-- Settles O19: the engine's turn needs BUSY. -/
theorem idleEngineDoesNothing : Obligations.IdleEngineDoesNothing := by
  intro s hadm hidle
  exact ⟨fun hp => (step_of_pending_nil hadm hp).trans (engineTurn_idle hidle),
    fun rest hp => (step_of_pending_cons hadm hp).trans
      (engineTurn_idle (s := s.setPending rest) hidle)⟩

/-! ### NOP (R193) -/

theorem exec_nop (s : State) : exec .nop s = .next (s.succeed .nothing) := rfl

/-- R99, item 2: a nonzero word with NOP's opcode sets a reserved bit. -/
theorem reservedBits_ne_zero_of_nopOpcode {c : Word} (hc : c ≠ 0) (hop : bits c 31 26 = 0) :
    bits c 25 0 ≠ 0 := fun hlow =>
  hc (encN_eq_iff.2 ⟨hop, hlow⟩).symm

/-- Settles O23: NOP succeeds with no effect, and O22's second item covers the nonzero words. -/
theorem nopCompletes : Obligations.NopCompletes := by
  refine ⟨fun s => ⟨_, exec_nop s, ⟨succeed_status s _, succeed_frame s _⟩, rfl, rfl⟩,
    fun s => ⟨_, exec_nop _, rfl⟩, fun s rest h hb hc hop => ?_⟩
  exact illegalWordsReportIllegalOp s rest h hb
    (.inr (.inl ⟨hop, reservedBits_ne_zero_of_nopOpcode hc hop⟩))

end Sys2Proof.Proofs

/-! Errors (60_exceptions.md): when the result of each command is an error, which codes a command can report,
and what the engine's turn leaves when it completes with one. -/

namespace Sys2Proof.Proofs

open Sys2Proof.Machine

/-! ### When a result is an error (R200, R202 to R205) -/

/-- A result behind a check that raises `c` is an error of the check, or past it one of the result. -/
theorem raisingCheck_eq_error_iff {P : Prop} [Decidable P] {c d : ErrCode} {r : Result} :
    (if P then .error c else r) = Except.error d ↔ (P ∧ d = c) ∨ (¬P ∧ r = .error d) := by
  split
  next h => simp [h, eq_comm]
  next h => simp [h]

/-- A result that is no error behind a check that raises `c` is an error exactly when the check fails. -/
theorem raisingCheck_ok_eq_error_iff {P : Prop} [Decidable P] {c d : ErrCode} {e : Effect} :
    (if P then .error c else .ok e : Result) = .error d ↔ P ∧ d = c :=
  raisingCheck_eq_error_iff.trans (or_iff_left (by rintro ⟨-, ⟨⟩⟩))

/-- R150, R205: a point command's range check raises OPERAND_RANGE and nothing else. -/
theorem rangeCheck_eq_error_iff {b : Bool} {d : ErrCode} {e : Effect} :
    (if b then .ok e else .error .operandRange : Result) = .error d
      ↔ b = false ∧ d = .operandRange := by
  cases b <;> simp [eq_comm]

theorem zero_or_even_iff {m : Nat} : m = 0 ∨ m % 2 = 0 ↔ m % 2 = 0 := by omega

theorem montmulResult_eq_error_iff {rd : FReg} {a b m : Nat} {c : ErrCode} :
    Machine.montmulResult rd a b m = .error c ↔ m % 2 = 0 ∧ c = .invalidModulus :=
  raisingCheck_ok_eq_error_iff.trans (and_congr_left' zero_or_even_iff)

theorem modexpResult_eq_error_iff {rd : FReg} {g e m : Nat} {c : ErrCode} :
    Machine.modexpResult rd g e m = .error c ↔ m % 2 = 0 ∧ c = .invalidModulus :=
  raisingCheck_ok_eq_error_iff.trans (and_congr_left' zero_or_even_iff)

theorem barrettResult_eq_error_iff {rd : FReg} {hi lo m : Nat} {c : ErrCode} :
    Machine.barrettResult rd hi lo m = .error c ↔ m = 0 ∧ c = .invalidModulus :=
  raisingCheck_ok_eq_error_iff

/-- R211: MODINV checks its modulus before it asks for an inverse. -/
theorem modinvResult_eq_error_iff {rd : FReg} {a m : Nat} {c : ErrCode} :
    Machine.modinvResult rd a m = .error c ↔
      (m = 0 ∧ c = .invalidModulus)
        ∨ (m ≠ 0 ∧ Nat.gcd (a % m) m ≠ 1 ∧ c = .notInvertible) :=
  raisingCheck_eq_error_iff.trans
    (or_congr_right (and_congr_right fun _ => raisingCheck_ok_eq_error_iff))

/-- R202: the second error of MODINV is not INVALID_MODULUS. -/
theorem modinvResult_eq_invalidModulus_iff {rd : FReg} {a m : Nat} :
    Machine.modinvResult rd a m = .error .invalidModulus ↔ m = 0 :=
  modinvResult_eq_error_iff.trans (by simp)

/-- R211: SMUL checks its scalar before its point. -/
theorem smulResult_eq_error_iff {s : State} {pd : PReg} {chk : Bool} {k : Nat} {q : Point}
    {c : ErrCode} :
    Machine.smulResult s pd chk k q = .error c ↔
      ((chk = true ∧ (k = 0 ∨ s.curve.n.toNat ≤ k)) ∧ c = .invalidScalar)
        ∨ (¬(chk = true ∧ (k = 0 ∨ s.curve.n.toNat ≤ k))
            ∧ s.inRange q = false ∧ c = .operandRange) :=
  raisingCheck_eq_error_iff.trans
    (or_congr_right (and_congr_right fun _ => rangeCheck_eq_error_iff))

/-! ### What completion leaves in ERRCODE (R192, R213) -/

/-- ERRCODE reads a code after completion exactly when the result was that error. -/
theorem complete_errcode_eq_some_iff {s : State} {r : Result} {c : ErrCode} :
    (s.complete r).status.errcode = some c ↔ r = .error c := by
  cases r with
  | ok e => exact ⟨nofun, nofun⟩
  | error d => simp

/-! ### The modulus of a field command (R202) -/

/-- R8: the prime `p` of a well-formed `CURVE` is greater than 3, and so odd. -/
theorem p_odd_of_curveWellFormed {c : Curve} (h : curveWellFormed c) : c.p.toNat % 2 = 1 := by
  obtain ⟨hprime, hgt, -⟩ := h
  exact hprime.eq_two_or_odd.resolve_left (by omega)

theorem n_ne_zero_of_curveWellFormed {c : Curve} (h : curveWellFormed c) : c.n.toNat ≠ 0 := by
  obtain ⟨-, -, -, -, -, -, hn, -⟩ := h
  omega

/-- A command completes, and ERRCODE then reads a code exactly when its result is that error. -/
theorem exists_next_errcode_iff {i : Instr} {s : State} {r : Result} {c : ErrCode} {P : Prop}
    (hi : exec i s = s.finish r) (hr : r = .error c ↔ P) :
    ∃ t, exec i s = .next t ∧ (t.status.errcode = some c ↔ P) :=
  ⟨_, hi, complete_errcode_eq_some_iff.trans hr⟩

/-- Settles O28: the four checks of the modulus; of a well-formed `CURVE`, `p` is odd and `n` is not 0. -/
theorem invalidModulusExactlyWhen : Obligations.InvalidModulusExactlyWhen := by
  intro s rd rs1 rs2 rm msel
  obtain ⟨t1, hexec1, hmontmul⟩ := exists_next_errcode_iff (i := .montmul rd rs1 rs2 rm msel)
    (s := s) rfl (montmulResult_eq_error_iff.trans (and_iff_left rfl))
  obtain ⟨t2, hexec2, hmodexp⟩ := exists_next_errcode_iff (i := .modexp rd rs1 rs2 rm msel)
    (s := s) rfl (modexpResult_eq_error_iff.trans (and_iff_left rfl))
  obtain ⟨t3, hexec3, hbarrett⟩ := exists_next_errcode_iff (i := .barrett rd rs1 rs2 rm msel)
    (s := s) rfl (barrettResult_eq_error_iff.trans (and_iff_left rfl))
  obtain ⟨t4, hexec4, hmodinv⟩ := exists_next_errcode_iff (i := .modinv rd rs1 rm msel)
    (s := s) rfl modinvResult_eq_invalidModulus_iff
  refine ⟨t1, t2, t3, t4, hexec1, hexec2, hexec3, hexec4, hmontmul, hmodexp, hbarrett, hmodinv,
    ?_, ?_⟩
  · rintro hc rfl
    have hodd : s.modulus rm .curveP % 2 = 1 := p_odd_of_curveWellFormed hc
    have hne : s.modulus rm .curveP ≠ 0 := by omega
    simp [hmontmul, hmodexp, hbarrett, hmodinv, hne, hodd]
  · rintro hc rfl
    have hne : s.modulus rm .curveN ≠ 0 := n_ne_zero_of_curveWellFormed hc
    exact ⟨hmontmul, hmodexp, mt hbarrett.1 hne, mt hmodinv.1 hne⟩

/-! ### The errors of SMUL (R204, R205) -/

/-- A command whose result is an error completes and fails with it (R192, R213). -/
theorem exists_next_failed {i : Instr} {s : State} {r : Result} {c : ErrCode}
    (hi : exec i s = s.finish r) (hr : r = .error c) :
    ∃ t, exec i s = .next t ∧ Failed s t c := by
  subst hr
  exact ⟨_, hi, raise_failed s c⟩

/-- Settles O37: the two errors of SMUL's result, the scalar's check coming first. -/
theorem smulErrors : Obligations.SmulErrors := by
  intro s pd ps1 rk gsel chk
  refine ⟨fun hchk hbad => ?_, fun hscalar hgsel hrange => ?_⟩
  · exact exists_next_failed rfl (smulResult_eq_error_iff.2 (.inl ⟨⟨hchk, hbad⟩, rfl⟩))
  · subst hgsel
    have hpass : ¬(chk = true ∧ (s.natF rk = 0 ∨ s.curve.n.toNat ≤ s.natF rk)) := by
      rintro ⟨hchk, hbad⟩
      have := hscalar hchk
      omega
    exact exists_next_failed rfl (smulResult_eq_error_iff.2 (.inr ⟨hpass, hrange, rfl⟩))

/-! ### An error is precise (R213) -/

/-- R38: an error raises IRQ where ERR or DONE may interrupt. -/
theorem irq_raise {s : State} (h : s.ie.errIE = true ∨ s.ie.doneIE = true) (c : ErrCode) :
    (s.raise c).irq = true := by
  obtain ⟨-, -, -, hie, -⟩ := raise_frame s c
  rw [State.irq, raise_status, hie]
  rcases h with h | h <;> simp [h]

/-- Settles O45: a turn that leaves a code has completed with that error, so that it is `raise`. -/
theorem errorIsPrecise : Obligations.ErrorIsPrecise := by
  intro s t code hb hturn hcode
  obtain ⟨r, rfl⟩ := engineTurn_busy_next hb hturn
  obtain rfl := complete_errcode_eq_some_iff.1 hcode
  rw [complete_error]
  obtain ⟨-, hp, hcmd, -⟩ := raise_frame s code
  exact ⟨raise_failed s code, congrArg pinfWord hp, hcmd, fun hie => irq_raise hie code⟩

/-! ### The codes each command can report (R200, R203, R206) -/

/-- The instruction may report the code: an instruction is a legal word, so that none reports
ILLEGAL_OP (R201 to R205). -/
def MayRaise (i : Instr) : ErrCode → Prop
  | .illegalOp => False
  | .invalidModulus => (destField i).isSome = true
  | .notInvertible => ∃ rd rs1 rm msel, i = .modinv rd rs1 rm msel
  | .invalidScalar => ∃ pd ps1 rk gsel, i = .smul pd ps1 rk gsel true
  | .operandRange => (destPoint i).isSome = true

/-- R200: the result of an instruction is no error but one it may report. -/
theorem exec_completes_mayRaise (i : Instr) (s : State) :
    ∃ r, exec i s = .next (s.complete r) ∧ ∀ c, r = .error c → MayRaise i c := by
  cases i with
  | nop => exact ⟨_, rfl, nofun⟩
  | montmul => exact ⟨_, rfl, fun _ h => (montmulResult_eq_error_iff.1 h).2 ▸ rfl⟩
  | barrett => exact ⟨_, rfl, fun _ h => (barrettResult_eq_error_iff.1 h).2 ▸ rfl⟩
  | modexp => exact ⟨_, rfl, fun _ h => (modexpResult_eq_error_iff.1 h).2 ▸ rfl⟩
  | modinv rd rs1 rm msel =>
    refine ⟨_, rfl, fun c h => ?_⟩
    obtain ⟨-, rfl⟩ | ⟨-, -, rfl⟩ := modinvResult_eq_error_iff.1 h
    · rfl
    · exact ⟨rd, rs1, rm, msel, rfl⟩
  | padd => exact ⟨_, rfl, fun _ h => (rangeCheck_eq_error_iff.1 h).2 ▸ rfl⟩
  | pdbl => exact ⟨_, rfl, fun _ h => (rangeCheck_eq_error_iff.1 h).2 ▸ rfl⟩
  | smul pd ps1 rk gsel chk =>
    refine ⟨_, rfl, fun c h => ?_⟩
    obtain ⟨⟨rfl, -⟩, rfl⟩ | ⟨-, -, rfl⟩ := smulResult_eq_error_iff.1 h
    · exact ⟨pd, ps1, rk, gsel, rfl⟩
    · rfl

/-- R200: ERRCODE reads no code after an instruction but one it may report. -/
theorem exec_mayRaise {i : Instr} {s t : State} {c : ErrCode} (h : exec i s = .next t)
    (hc : t.status.errcode = some c) : MayRaise i c := by
  obtain ⟨r, hr, hraise⟩ := exec_completes_mayRaise i s
  obtain rfl : s.complete r = t := Host.Outcome.next.inj (hr.symm.trans h)
  exact hraise c (complete_errcode_eq_some_iff.1 hc)

/-- R200, R206: the numbers of the codes are 0 to 5. -/
theorem errCodeBits_le (c : Option ErrCode) : (errCodeBits c).toNat ≤ 5 := by
  cases c with
  | none => decide
  | some c => cases c <;> decide

/-- Settles O46: an instruction reports what it may raise, code by code, and STATUS shows the number of
the code. -/
theorem errorCodesByCommand : Obligations.ErrorCodesByCommand := by
  refine ⟨fun i s t h => ?_, fun s => ?_⟩
  · cases hc : t.status.errcode with
    | none => exact .inl rfl
    | some c =>
      have hraise := exec_mayRaise h hc
      cases c with
      | illegalOp => exact hraise.elim
      | invalidModulus => exact .inr (.inl ⟨rfl, hraise⟩)
      | notInvertible => exact .inr (.inr (.inl ⟨rfl, hraise⟩))
      | invalidScalar => exact .inr (.inr (.inr (.inl ⟨rfl, hraise⟩)))
      | operandRange => exact .inr (.inr (.inr (.inr ⟨rfl, hraise⟩)))
  · obtain ⟨-, hbits, -⟩ := bits_statusWord s.status
    exact hbits.trans_le (errCodeBits_le _)

end Sys2Proof.Proofs


/-! The reset input and the operand hazard (70_reset_and_hazards.md): what a block in reset answers to each
event, and what a busy block makes of a host write to an operand. -/

namespace Sys2Proof.Proofs

open Sys2Proof.Machine

/-! ### The reset input (R240, R241) -/

/-- R240: the assertion of the reset input is a reset of the block that leaves the input asserted. -/
theorem step_resetAssert {s : State} {rest : List Event} (hadm : s.admitted = true)
    (hp : s.pending = .resetAssert :: rest) :
    step s = .next ((s.setPending rest).blockReset.setResetAsserted true) :=
  step_of_pending_cons hadm hp

/-- R240: the release changes the reset input alone. -/
theorem step_resetRelease {s : State} {rest : List Event} (hadm : s.admitted = true)
    (hp : s.pending = .resetRelease :: rest) :
    step s = .next ((s.setPending rest).setResetAsserted false) :=
  step_of_pending_cons hadm hp

/-- R240: while reset is asserted a host write to a location is lost. -/
theorem step_write_of_resetAsserted {s : State} {r : WindowReg} {v : Word} {rest : List Event}
    (hadm : s.admitted = true) (hreset : s.resetAsserted = true)
    (hp : s.pending = .write (s.base + r.offset) 4 v :: rest) :
    step s = .next ((s.setPending rest).setRdata none) := by
  rw [step_of_pending_cons hadm hp]
  change (s.setPending rest).hostWrite ((s.setPending rest).base + r.offset) 4 v = _
  rw [State.hostWrite, route_offset]
  simp [hreset]

/-- R240: BUSY is clear in a block at its reset values, so that the engine has nothing to complete. -/
theorem engineTurn_of_registersAtReset {s : State} (h : s.registersAtReset) :
    engineTurn s = .next s := by
  obtain ⟨-, -, -, hstatus, -⟩ := h
  exact engineTurn_idle (congrArg Status.busy hstatus)

/-- R240: an event that finds reset asserted and the registers at their reset values leaves them there, and
only the release takes the reset input back. -/
theorem runEvent_of_resetAsserted {e : Event} {u t : State} (hreset : u.resetAsserted = true)
    (hregs : u.registersAtReset) (h : runEvent e u = .next t) :
    t.registersAtReset ∧ (t.resetAsserted = true ∨ e = .resetRelease) := by
  cases e with
  | read addr size =>
    obtain ⟨r, -, rfl⟩ := hostRead_next h
    exact ⟨hregs, .inl hreset⟩
  | write addr size v =>
    obtain ⟨r, -, rfl⟩ := hostWrite_next h
    rw [if_pos hreset]
    exact ⟨hregs, .inl hreset⟩
  | engine =>
    obtain rfl := Host.Outcome.next.inj ((engineTurn_of_registersAtReset hregs).symm.trans h)
    exact ⟨hregs, .inl hreset⟩
  | resetAssert =>
    obtain rfl := Host.Outcome.next.inj h
    exact ⟨blockReset_registersAtReset u, .inl rfl⟩
  | resetRelease =>
    obtain rfl := Host.Outcome.next.inj h
    exact ⟨hregs, .inr rfl⟩

/-- R240: a block in reset keeps its reset values at every step, and stays in reset but for the release. -/
theorem step_of_resetAsserted {s t : State} (hreset : s.resetAsserted = true)
    (hregs : s.registersAtReset) (h : step s = .next t) :
    t.registersAtReset ∧ (t.resetAsserted = true ∨ ∃ rest, s.pending = .resetRelease :: rest) := by
  obtain ⟨-, ⟨-, ht⟩ | ⟨e, rest, hp, ht⟩⟩ := step_next h
  · obtain rfl := Host.Outcome.next.inj ((engineTurn_of_registersAtReset hregs).symm.trans ht)
    exact ⟨hregs, .inl hreset⟩
  · obtain ⟨hregs', hheld⟩ := runEvent_of_resetAsserted (u := s.setPending rest) hreset hregs ht
    refine ⟨hregs', hheld.imp_right ?_⟩
    rintro rfl
    exact ⟨rest, hp⟩

/-- Settles O2: the assertion is `blockReset`, no event moves a block in reset but its release, and a write
that finds reset asserted is lost. -/
theorem hardResetResetsTheBlock : Obligations.HardResetResetsTheBlock := by
  refine ⟨fun s rest hadm hp => ?_, fun s t hreset hregs h => ?_,
    fun s r v rest hadm hreset hp => step_write_of_resetAsserted hadm hreset hp,
    fun s rest hadm hp => step_resetRelease hadm hp⟩
  · have hisReset := blockReset_isReset (s.setPending rest)
    exact ⟨_, step_resetAssert hadm hp, hisReset, rfl, irq_of_registersAtReset hisReset.1, rfl⟩
  · obtain ⟨hregs', hheld⟩ := step_of_resetAsserted hreset hregs h
    exact ⟨⟨hregs', stepKeepsCurveAndBase s t h⟩, irq_of_registersAtReset hregs', hheld⟩

/-! ### Operand writes while busy (R250) -/

/-- R250: PINF and every word of a field or point register drop a write while a command is pending. -/
theorem writeReg_operand_busy {s : State} {r : WindowReg} (hb : s.status.busy = true)
    (hr : r = .pinf ∨ (∃ i j, r = .f i j) ∨ (∃ i j, r = .px i j) ∨ (∃ i j, r = .py i j)) (v : Word) :
    s.writeReg r v = s.setStatus { s.status with wbusy := true } := by
  obtain rfl | ⟨i, j, rfl⟩ | ⟨i, j, rfl⟩ | ⟨i, j, rfl⟩ := hr <;>
    exact writeOperand_busy hb _

/-- Settles O54: an operand write is dropped with WBUSY set, and O55 covers the read-only locations. -/
theorem operandWriteWhileBusyIsDropped : Obligations.OperandWriteWhileBusyIsDropped := by
  intro s r v rest hb h
  refine ⟨fun hr => ?_, fun hr => readOnlyWritesAreIgnored s r v rest hr h⟩
  rw [step_hostWrites h, writeReg_operand_busy (s := s.setPending rest) hb hr]
  rfl

end Sys2Proof.Proofs
